-- ==== Sys2Proof/Word.lean ====
section
/-!
DEFINITION. The value types of the block's ports: a byte, a 16-bit number, a sequence of bytes.
All values are unsigned (spec 00_scope.md R6, R10; 40_checksum.md R66).
-/

namespace Sys2Proof

/-- A byte, 8 bits, unsigned (R6, R10). -/
abbrev Byte := BitVec 8

/-- A 16-bit number: an operation word (R41), a command code (R6), a CRC (R59), a frame field (R23, R24). -/
abbrev Word := BitVec 16

/-- `Seq` of R10: the finite lists of bytes, with no length bound (D6). -/
abbrev Bytes := List Byte

end Sys2Proof
end

