-- ==== Sys2Proof/Syntax.lean ====
section
/-!
DEFINITION. The values that cross the block's ports (30_encoding.md R40, R43; 10_state.md R23, R24) and the
instruction type: one constructor for each row of spec/opcode_table.json, in the table's order (R44).
Every field holds exactly its width (R43), so every term of `Instr` is a well-formed instruction.
-/

namespace Sys2Proof

/-- The verification mode (00_scope.md R8, 30_encoding.md R45). -/
inductive Verification where
  | none
  | mod256
  | crc16
deriving DecidableEq, Repr, Inhabited

/-- The Information record (10_state.md R24). `fromPC` is derived from it, never stored. -/
structure Information where
  ack : Byte
  nr : Word
  devStatus : Word
  status : Word
deriving DecidableEq, Repr, Inhabited

/-- The operand of FRAME_ENCODE (30_encoding.md R43; 10_state.md R23): a Frame without `dataOffset` and
without `verification`. -/
structure FrameOperand where
  address : Byte
  command : Word
  information : Information
  data : Bytes
deriving DecidableEq, Repr, Inhabited

/-- A Frame value, the result of FRAME_DECODE (10_state.md R23, R25). -/
structure Frame where
  address : Byte
  command : Word
  dataOffset : Word
  information : Information
  data : Bytes
  verification : Verification
deriving DecidableEq, Repr, Inhabited

/-- What the operand port carries with an operation word (30_encoding.md R40, R43).
R43 has two operand shapes with content, a Seq and the frame fields, and the port carries both: the selected operation
reads the one R43 gives it and no other (DESIGN CHOICE, safe: log entry 4). -/
structure Operand where
  seq : Bytes
  frame : FrameOperand
deriving DecidableEq, Repr, Inhabited

/-- A request, the pair (opword, operand) (30_encoding.md R40). -/
structure Request where
  opword : Word
  operand : Operand
deriving DecidableEq, Repr, Inhabited

/-- The operations of the block with the operands R43 gives them (30_encoding.md R43, R44). -/
inductive Instr where
  /-- `crc16_x25`, opword 0x0001 (40_checksum.md R60) -/
  | crc16X25 (d : Bytes)
  /-- `mod256`, opword 0x0002 (40_checksum.md R63) -/
  | mod256 (d : Bytes)
  /-- `escape`, opword 0x0003 (41_byte_stuffer.md R68) -/
  | escape (d : Bytes)
  /-- `unescape`, opword 0x0004 (41_byte_stuffer.md R70) -/
  | unescape (d : Bytes)
  /-- `frame.encode.none`, opword 0x0005 (42_frame_codec.md R80) -/
  | frameEncodeNone (f : FrameOperand)
  /-- `frame.encode.mod256`, opword 0x0105 (42_frame_codec.md R80) -/
  | frameEncodeMod256 (f : FrameOperand)
  /-- `frame.encode.crc16`, opword 0x0205 (42_frame_codec.md R80) -/
  | frameEncodeCrc16 (f : FrameOperand)
  /-- `frame.decode.none`, opword 0x0006 (42_frame_codec.md R83) -/
  | frameDecodeNone (w : Bytes)
  /-- `frame.decode.mod256`, opword 0x0106 (42_frame_codec.md R83) -/
  | frameDecodeMod256 (w : Bytes)
  /-- `frame.decode.crc16`, opword 0x0206 (42_frame_codec.md R83) -/
  | frameDecodeCrc16 (w : Bytes)
  /-- `tok.append`, opword 0x0007 (43_tokenizer.md R95) -/
  | tokAppend (d : Bytes)
  /-- `tok.next`, opword 0x0008 (43_tokenizer.md R96) -/
  | tokNext
deriving DecidableEq, Repr

end Sys2Proof
end

