-- ==== Sys2Proof/WellFormed.lean ====
section
/-!
DEFINITION. Which operation words are legal, written from the four conditions of 30_encoding.md R46 as arithmetic on the
16-bit word (R41: op = bits 7:0, mode = bits 9:8, rsv = bits 15:10). The decoder does not use these checks: it is written
from the table of R44, and that the two agree is a statement for the provers.
An instruction's operands need no check: "Each field holds exactly its width, so no operand value lies outside its
field" (R43).
-/

namespace Sys2Proof.WellFormed

/-- The `op` field by arithmetic, bits 7:0 (R41). -/
abbrev opNumber (w : Word) : Nat := w.toNat % 256

/-- The `mode` field by arithmetic, bits 9:8 (R41). -/
abbrev modeNumber (w : Word) : Nat := w.toNat / 256 % 4

/-- The `rsv` field by arithmetic, bits 15:10 (R41). -/
abbrev rsvNumber (w : Word) : Nat := w.toNat / 1024

/-- R46, first condition negated: `op` is neither 0x00 nor in 0x09..0xFF. -/
def opKnown (w : Word) : Bool := 1 ≤ opNumber w && opNumber w ≤ 8

/-- R46, second condition negated: `rsv` is 0. -/
def rsvZero (w : Word) : Bool := rsvNumber w == 0

/-- Whether `op` is 0x05 or 0x06, the operations that take a mode (R41, R46). -/
def takesMode (w : Word) : Bool := opNumber w == 5 || opNumber w == 6

/-- R46, third condition negated: `mode` is 00 unless the operation takes a mode. -/
def modeZeroUnlessFrame (w : Word) : Bool := takesMode w || modeNumber w == 0

/-- R46, fourth condition negated: `mode` is not the reserved code 11 for op 0x05 or 0x06 (R45). -/
def modeNotReserved (w : Word) : Bool := !(takesMode w && modeNumber w == 3)

/-- A legal operation word: none of R46's four conditions holds. -/
def opwordLegal (w : Word) : Bool :=
  opKnown w && rsvZero w && modeZeroUnlessFrame w && modeNotReserved w

/-- A well-formed request: its operation word is legal. Its operand cannot be ill-formed (R43). -/
def requestLegal (r : Request) : Bool := opwordLegal r.opword

end Sys2Proof.WellFormed
end

