-- ==== Sys2Proof/Decode.lean ====
section
/-!
DEFINITION. The decoder of requests and its encoder (30_encoding.md R41, R44, R45, R47).
The decoder is total: a word outside the table of R44 is rejected by name, and the step turns that rejection into the
status IllegalOperation (R46). The encoder is written from the field layout of R41, not from the table.
-/

namespace Sys2Proof

/-- Why a request is not an operation. -/
inductive DecodeError where
  /-- the operation word is not in the table of R44 (R46): the step answers it with IllegalOperation -/
  | illegalOperation (opword : Word)
deriving DecidableEq, Repr

/-- Decoding a request: the table of R44, then the operand R43 gives the operation (R47: the opword first). -/
def decode (r : Request) : Except DecodeError Instr :=
  match r.opword with
  | 0x0001#16 => .ok (.crc16X25 r.operand.seq)
  | 0x0002#16 => .ok (.mod256 r.operand.seq)
  | 0x0003#16 => .ok (.escape r.operand.seq)
  | 0x0004#16 => .ok (.unescape r.operand.seq)
  | 0x0005#16 => .ok (.frameEncodeNone r.operand.frame)
  | 0x0105#16 => .ok (.frameEncodeMod256 r.operand.frame)
  | 0x0205#16 => .ok (.frameEncodeCrc16 r.operand.frame)
  | 0x0006#16 => .ok (.frameDecodeNone r.operand.seq)
  | 0x0106#16 => .ok (.frameDecodeMod256 r.operand.seq)
  | 0x0206#16 => .ok (.frameDecodeCrc16 r.operand.seq)
  | 0x0007#16 => .ok (.tokAppend r.operand.seq)
  | 0x0008#16 => .ok .tokNext
  | w => .error (.illegalOperation w)

/-- FRAME_ENCODE in a mode (R44). -/
def frameEncodeInstr (m : Verification) (f : FrameOperand) : Instr :=
  match m with
  | .none => .frameEncodeNone f
  | .mod256 => .frameEncodeMod256 f
  | .crc16 => .frameEncodeCrc16 f

/-- FRAME_DECODE in a mode (R44). -/
def frameDecodeInstr (m : Verification) (w : Bytes) : Instr :=
  match m with
  | .none => .frameDecodeNone w
  | .mod256 => .frameDecodeMod256 w
  | .crc16 => .frameDecodeCrc16 w

/-- Whether an operation reads the frame fields of its operand (R43). -/
def readsFrame : Instr → Bool
  | .frameEncodeNone _ => true
  | .frameEncodeMod256 _ => true
  | .frameEncodeCrc16 _ => true
  | .crc16X25 _ => false
  | .mod256 _ => false
  | .escape _ => false
  | .unescape _ => false
  | .frameDecodeNone _ => false
  | .frameDecodeMod256 _ => false
  | .frameDecodeCrc16 _ => false
  | .tokAppend _ => false
  | .tokNext => false

/-- Whether an operation reads the Seq of its operand (R43). TOK_NEXT reads neither. -/
def readsSeq : Instr → Bool
  | .crc16X25 _ => true
  | .mod256 _ => true
  | .escape _ => true
  | .unescape _ => true
  | .frameDecodeNone _ => true
  | .frameDecodeMod256 _ => true
  | .frameDecodeCrc16 _ => true
  | .tokAppend _ => true
  | .frameEncodeNone _ => false
  | .frameEncodeMod256 _ => false
  | .frameEncodeCrc16 _ => false
  | .tokNext => false

/-- The two-bit code of a verification mode (R45). -/
def modeCode : Verification → BitVec 2
  | .none => 0b00#2
  | .mod256 => 0b01#2
  | .crc16 => 0b10#2

/-- An operation word from its fields: rsv = 000000, then mode, then op (R41). -/
def opwordOf (op : Byte) (mode : Verification) : Word := 0b000000#6 ++ modeCode mode ++ op

/-- The operation word of an instruction: its op code and its mode (R41, R44, R45). -/
def opwordOfInstr : Instr → Word
  | .crc16X25 _ => opwordOf 0x01#8 .none
  | .mod256 _ => opwordOf 0x02#8 .none
  | .escape _ => opwordOf 0x03#8 .none
  | .unescape _ => opwordOf 0x04#8 .none
  | .frameEncodeNone _ => opwordOf 0x05#8 .none
  | .frameEncodeMod256 _ => opwordOf 0x05#8 .mod256
  | .frameEncodeCrc16 _ => opwordOf 0x05#8 .crc16
  | .frameDecodeNone _ => opwordOf 0x06#8 .none
  | .frameDecodeMod256 _ => opwordOf 0x06#8 .mod256
  | .frameDecodeCrc16 _ => opwordOf 0x06#8 .crc16
  | .tokAppend _ => opwordOf 0x07#8 .none
  | .tokNext => opwordOf 0x08#8 .none

/-- The frame fields with every field zero and no data: what the operand port carries where no frame is read. -/
def zeroFrameOperand : FrameOperand := ⟨0#8, 0#16, ⟨0#8, 0#16, 0#16, 0#16⟩, []⟩

/-- The operand port of an instruction (R43). What the operation does not read is zero (log entry 4). -/
def operandOfInstr : Instr → Operand
  | .crc16X25 d => ⟨d, zeroFrameOperand⟩
  | .mod256 d => ⟨d, zeroFrameOperand⟩
  | .escape d => ⟨d, zeroFrameOperand⟩
  | .unescape d => ⟨d, zeroFrameOperand⟩
  | .frameEncodeNone f => ⟨[], f⟩
  | .frameEncodeMod256 f => ⟨[], f⟩
  | .frameEncodeCrc16 f => ⟨[], f⟩
  | .frameDecodeNone w => ⟨w, zeroFrameOperand⟩
  | .frameDecodeMod256 w => ⟨w, zeroFrameOperand⟩
  | .frameDecodeCrc16 w => ⟨w, zeroFrameOperand⟩
  | .tokAppend d => ⟨d, zeroFrameOperand⟩
  | .tokNext => ⟨[], zeroFrameOperand⟩

/-- The request of an instruction: "its 16-bit opword followed by its operand value" (R40, R54). -/
def encode (i : Instr) : Request := ⟨opwordOfInstr i, operandOfInstr i⟩

/-- The request whose low `nbits` bits are those of `w`, numbered as spec/opcode_table.json numbers them, every other
bit zero: the operation word is bits 15:0, and the operand port, which the table gives no bits, is all zero. -/
def tableRequest (nbits w : Nat) : Request :=
  ⟨BitVec.ofNat 16 (w % 2 ^ nbits), ⟨[], zeroFrameOperand⟩⟩

/-- The instruction the decoder reads from a row of spec/opcode_table.json. -/
def decodeTableWord (nbits w : Nat) : Option Instr :=
  match decode (tableRequest nbits w) with
  | .ok i => some i
  | .error _ => none

end Sys2Proof
end

