-- ==== Sys2Proof/Config.lean ====
section
/-!
DEFINITION. The block's parameters ENUM, CAT and TOK_CAP (00_scope.md R9). They are arguments of the block, fixed for
the life of an instance (10_state.md R20, 70_reset_and_hazards.md R121). The contents of ENUM and CAT are
OPEN in the spec (D17), so those of the instance that comes out of reset are opaque constants: nothing can be proved of
them but what R9 says. TOK_CAP has a default (R9 (c), D7), and that instance has it. `BUS_BINDING` (R9 (d)) is not modelled, as the spec says (log entry 9).
-/

namespace Sys2Proof

/-- A LenSpec: `Exact n` or `Variable`, a case of its own and no sentinel number (R9 (b), 42_frame_codec.md R76). -/
inductive LenSpec where
  | exact (n : Nat)
  | variable
deriving DecidableEq, Repr, Inhabited

/-- One value of CAT: the length for the request and for the response direction (R9 (b), R77). -/
structure CatEntry where
  req : LenSpec
  resp : LenSpec
deriving DecidableEq, Repr, Inhabited

/-- TOK_CAP: `Unbounded` or `Cap n` (R9 (c)). -/
inductive TokCap where
  | unbounded
  | cap (n : Nat)
deriving DecidableEq, Repr, Inhabited

/-- The parameters of one block instance as plain data. `catalog` holds ENUM and CAT in one table: ENUM is the set of
codes that have a row, and CAT of a code is the entry of its first row, so CAT is total on ENUM and on nothing else
(R9 (a), (b)). Every finite ENUM and every CAT on it is such a table (log entry 3). -/
structure Config where
  catalog : List (Word × CatEntry)
  tokCap : TokCap
deriving DecidableEq, Repr, Inhabited

/-- The command code of "start print", the one member of ENUM that the source identifies (R9 (a)). -/
def Config.startPrint : Word := 0x0018#16

/-- OPEN (R9 (b), D17): the payload lengths of command 0x0018. -/
opaque Config.startPrintEntry : CatEntry

/-- OPEN (R9 (a), (b), D17): every other command of ENUM with its payload lengths. -/
opaque Config.otherCommands : List (Word × CatEntry)

/-- The default of TOK_CAP, `Unbounded` (R9 (c), D7). -/
def Config.tokCapDefault : TokCap := .unbounded

/-- The parameters of the block instance that comes out of reset: TOK_CAP has its default, and ENUM and CAT are unknown,
but for 0x0018 being in ENUM (R9, R26). -/
def Config.block : Config where
  catalog := (Config.startPrint, Config.startPrintEntry) :: Config.otherCommands
  tokCap := Config.tokCapDefault

end Sys2Proof
end

