-- ==== Sys2Proof/Machine/State.lean ====
section
/-!
DEFINITION. The machine's state, the values on its response port, and why a step can stop (it cannot).
The one piece of architectural state is the tokenizer buffer B (10_state.md R16). The other fields are the model's own:
the block's parameters (R9), which the spec calls arguments and which no step writes, and the host's side of the two
ports (30_encoding.md R40, R42).
-/

namespace Sys2Proof.Machine

/-- The status of a response (60_exceptions.md R104). The numeric codes are `Status.code`. -/
inductive Status where
  | ok
  | frameTooShort
  | badDelimiter
  | checksumMismatch
  | unknownCommand
  | badDataOffset
  | badInformation
  | payloadLengthMismatch
  /-- belongs to the payload codecs, never returned by this block (R104, R5 (a)) -/
  | encodingValueError
  /-- belongs to the payload codecs, never returned by this block (R104, R5 (a)) -/
  | incorrectByteCount
  | illegalOperation
  | tokenizerOverflow
deriving DecidableEq, Repr

/-- The result of a response, in the shapes of 30_encoding.md R43. -/
inductive Result where
  /-- no result: TOK_APPEND, and an illegal operation word, which selects no operation (log entry 5) -/
  | none
  /-- CRC16_X25: 16 bits -/
  | word (c : Word)
  /-- MOD256: 8 bits -/
  | byte (s : Byte)
  /-- ESCAPE, UNESCAPE, FRAME_ENCODE: a Seq -/
  | seq (e : Bytes)
  /-- FRAME_DECODE: a Frame, or no Frame -/
  | frame (f : Option Frame)
  /-- TOK_NEXT: (has_token, T) -/
  | token (hasToken : Bool) (t : Bytes)
deriving DecidableEq, Repr

/-- A response, the pair (status, result) (30_encoding.md R42). -/
structure Response where
  status : Status
  result : Result
deriving DecidableEq, Repr

/-- What the host presents to the block: a request (R40), or a reset between operations (70_reset_and_hazards.md R119). -/
inductive HostInput where
  | request (r : Request)
  | reset
deriving DecidableEq, Repr

/-- The state. -/
structure State where
  /-- B, the tokenizer buffer (10_state.md R16) -/
  buffer : Bytes
  /-- the parameters ENUM, CAT and TOK_CAP of this block instance: arguments of the block, written by nothing
  (R9, R20, R121; log entry 3) -/
  config : Config
  /-- MODEL's own: what the host has issued and the block has not yet accepted, in issue order
  (10_state.md R18, 20_memory.md R36; DESIGN CHOICE: log entry 1) -/
  inputs : List HostInput
  /-- MODEL's own: the responses given so far, oldest first; no operation reads them
  (30_encoding.md R42, 10_state.md R19; DESIGN CHOICE: log entry 2) -/
  responses : List Response
deriving DecidableEq, Repr

/-- The faults of the machine: none. Every error of the block is a status in a response, after which "the next request is
accepted as usual" (60_exceptions.md R107), so nothing raises a fault. Safe: no run of the block ends in one. -/
inductive Fault where
deriving DecidableEq, Repr

/-- The refusals of the machine. -/
inductive Refusal where
  /-- raised by an arm of `exec` whose instruction has no meaning yet; safe. No arm raises it: every instruction has its
  meaning. -/
  | notModelled (mnemonic : String)
deriving DecidableEq, Repr

/-- The machine right after reset: B is empty (R26, R119), and the parameters are those of the block instance
(R26: "configuration, not changed by reset"): TOK_CAP at its default (R9 (c)), ENUM and CAT open (log entry 3). That the host has issued nothing and been answered
nothing is the model's choice (DESIGN CHOICE: log entries 1 and 2). -/
def State.reset : State where
  buffer := []
  config := Config.block
  inputs := []
  responses := []

end Sys2Proof.Machine
end

