-- ==== Sys2Proof/Machine/Ops.lean ====
section
/-!
DEFINITION. The primitives of the spec's pseudocode (00_scope.md R10, R11): byte order, slices and searches on sequences,
and the shared operations over the state: answering a request, raising an error (60_exceptions.md R107), reset (R119).
-/

namespace Sys2Proof.Machine

/-! ### Sequences and byte order -/

/-- `le16(v) = [v[7:0], v[15:8]]`: the low byte first (R10, 20_memory.md R28). -/
def le16 (v : Word) : Bytes := [v.extractLsb' 0 8, v.extractLsb' 8 8]

/-- `rd16(x, i) = x[i] + 256 * x[i+1]` (R10, R28). Outside `x` it would read zeros; every use is inside (log entry 10). -/
def rd16 (x : Bytes) (i : Nat) : Word := x.getD (i + 1) 0#8 ++ x.getD i 0#8

/-- The inclusive slice `x[a..=b]`, empty when `b < a` (R10). -/
def slice (x : Bytes) (a b : Nat) : Bytes := (x.take (b + 1)).drop a

/-- `first(x, b)`: the least index that holds `b`, or NONE (R10, 43_tokenizer.md R94). -/
def first : Bytes → Byte → Option Nat
  | [], _ => none
  | y :: ys, b => if y = b then some 0 else (first ys b).map (· + 1)

/-- The frame-start delimiter SOF (R6). -/
abbrev sof : Byte := 0x7E#8

/-- The frame-end delimiter EOF (R6). -/
abbrev eof : Byte := 0x7F#8

/-- The escape byte ESC (R6). -/
abbrev esc : Byte := 0x7D#8

/-! ### Responses -/

/-- `return (OK, outputs)` (R11): the response of an operation that ends normally. -/
def returned (r : Result) : Response := ⟨.ok, r⟩

/-- `raise E` (60_exceptions.md R107): the response is the status and the empty result of the operation's shape
(30_encoding.md R42), with no other detail (R106). -/
def raised (e : Status) (empty : Result) : Response := ⟨e, empty⟩

/-- The block gives its one response to the request it is serving. -/
def State.respond (s : State) (r : Response) : State := { s with responses := s.responses ++ [r] }

/-- TAKING AN ERROR, the block's only exception (60_exceptions.md R107, R111): the response carries it, the buffer keeps
its value, nothing is saved and nothing is redirected. There is no return from it (R112). -/
def State.raise (s : State) (e : Status) (empty : Result) : State := s.respond (raised e empty)

/-- The normal end of an operation that leaves the buffer alone (R11, R17). -/
def State.ret (s : State) (r : Result) : State := s.respond (returned r)

/-- `B <- v` (R11). -/
def State.setBuffer (s : State) (b : Bytes) : State := { s with buffer := b }

/-- The outcome of an operation that neither reads nor writes B (R17): its result or the error it raises. -/
def answer (empty : Result) (x : Except Status Result) (s : State) :
    Host.Outcome State Fault Refusal :=
  .next (match x with
    | .ok r => s.ret r
    | .error e => s.raise e empty)

/-- The outcome of a tokenizer operation (R17): its result and the new B, or the error it raises with B unchanged. -/
def answerBuffer (empty : Result) (x : Except Status (Result × Bytes)) (s : State) :
    Host.Outcome State Fault Refusal :=
  .next (match x with
    | .ok (r, b) => (s.setBuffer b).ret r
    | .error e => s.raise e empty)

/-! ### The host's side -/

/-- The state in which the host presents the request `r` next (30_encoding.md R40). -/
def State.present (s : State) (r : Request) : State := { s with inputs := .request r :: s.inputs }

/-- Reset: `B <- []` and nothing else (70_reset_and_hazards.md R119, R120). -/
def State.resetBlock (s : State) : State := s.setBuffer []

end Sys2Proof.Machine
end

