-- ==== Sys2Proof/Machine/ByteStuffer.lean ====
section
/-!
DEFINITION. The byte stuffer: ESCAPE and UNESCAPE (41_byte_stuffer.md R67-R74; 30_encoding.md R51).
-/

namespace Sys2Proof.Machine

/-- The reserved set `RES = {0x7D, 0x7E, 0x7F}` (R67). -/
def isReserved (b : Byte) : Bool := b == esc || b == sof || b == eof

/-- The second byte of an escape pair: 0x5D, 0x5E or 0x5F (R51, R70). -/
def isEscapeCode (b : Byte) : Bool := b == 0x5D#8 || b == 0x5E#8 || b == 0x5F#8

/-- How one byte is stuffed (R51, R67): a reserved byte as `[0x7D, b ^ 0x20]`, any other as itself. -/
def escapeByte (b : Byte) : Bytes := if isReserved b then [esc, b ^^^ 0x20#8] else [b]

/-- `escape(D)`: one forward pass over the original bytes; inserted bytes are never examined (R68, R69). -/
def escape : Bytes → Bytes
  | [] => []
  | b :: bs => escapeByte b ++ escape bs

/-- `unescape(D)`: a forward pass that replaces each pair and copies every other byte (R70, D22). -/
def unescape : Bytes → Bytes
  | [] => []
  | [b] => [b]
  | b :: c :: bs =>
    if b = esc ∧ isEscapeCode c = true then (c ^^^ 0x20#8) :: unescape bs
    else b :: unescape (c :: bs)

/-- ESCAPE, opword 0x0003 (R68). -/
def execEscape (d : Bytes) (s : State) : Host.Outcome State Fault Refusal :=
  answer (.seq []) (.ok (.seq (escape d))) s

/-- UNESCAPE, opword 0x0004 (R70). -/
def execUnescape (d : Bytes) (s : State) : Host.Outcome State Fault Refusal :=
  answer (.seq []) (.ok (.seq (unescape d))) s

end Sys2Proof.Machine
end

