-- ==== Sys2Proof/Machine/Checksum.lean ====
section
/-!
DEFINITION. The checksum engine: CRC16_X25 and MOD256 (40_checksum.md R57-R66).
-/

namespace Sys2Proof.Machine

/-- One of the eight iterations of `crc_byte`: the low bit is tested before the logical right shift (R57). -/
def crcShift (r : Word) : Word := if r.getLsbD 0 then (r >>> 1) ^^^ 0x8408#16 else r >>> 1

/-- `repeat n times` of the shift. -/
def crcShifts : Nat → Word → Word
  | 0, r => r
  | n + 1, r => crcShifts n (crcShift r)

/-- `crc_byte(r, b)`: the byte enters the low byte of the register, then eight shifts (R57, R58). -/
def crcByte (r : Word) (b : Byte) : Word := crcShifts 8 (r ^^^ b.setWidth 16)

/-- The register after the bytes of `d`, in increasing index order (R59). -/
def crcFold (r : Word) (d : Bytes) : Word := d.foldl crcByte r

/-- `crc16_x25(D)`: initial register 0xFFFF, final complement (R59). -/
def crc16X25 (d : Bytes) : Word := ~~~ (crcFold 0xFFFF#16 d)

/-- `mod256(D)`: the wrapping running sum from 0 (R62, R64). -/
def mod256 (d : Bytes) : Byte := d.foldl (· + ·) 0#8

/-- CRC16_X25, opword 0x0001 (R60). -/
def execCrc16X25 (d : Bytes) (s : State) : Host.Outcome State Fault Refusal :=
  answer (.word 0#16) (.ok (.word (crc16X25 d))) s

/-- MOD256, opword 0x0002 (R63). -/
def execMod256 (d : Bytes) (s : State) : Host.Outcome State Fault Refusal :=
  answer (.byte 0#8) (.ok (.byte (mod256 d))) s

end Sys2Proof.Machine
end

