-- ==== Sys2Proof/Machine/Operands.lean ====
section
/-!
DEFINITION. The record forms of operands and results: the Information block on the wire, the direction it gives, the legal
acknowledge bytes (10_state.md R24), and the empty result of each operation's shape (30_encoding.md R42, R43).
-/

namespace Sys2Proof.Machine

/-- `info7(I)`: the seven wire bytes of an Information record (R24). -/
def info7 (i : Information) : Bytes := i.ack :: (le16 i.nr ++ le16 i.devStatus ++ le16 i.status)

/-- The derived bit `fromPC(I)`: all seven information bytes are zero (R24, 42_frame_codec.md R77, R88). -/
def fromPC (i : Information) : Bool := info7 i == [0#8, 0#8, 0#8, 0#8, 0#8, 0#8, 0#8]

/-- The Information record whose seven wire bytes start at index `i` of `x` (42_frame_codec.md R83, step 5). -/
def readInformation (x : Bytes) (i : Nat) : Information where
  ack := x.getD i 0#8
  nr := rd16 x (i + 1)
  devStatus := rd16 x (i + 3)
  status := rd16 x (i + 5)

/-- The legal acknowledge bytes 0x00, 0x06 and 0x15 (R6, R24). -/
def ackLegal (a : Byte) : Bool := a == 0x00#8 || a == 0x06#8 || a == 0x15#8

/-- The empty value of the result shape of an operation: "`[]` for a Seq, 0 for a number, and no Frame for
FRAME_DECODE" (R42, R43). -/
def emptyResult : Instr → Result
  | .crc16X25 _ => .word 0#16
  | .mod256 _ => .byte 0#8
  | .escape _ => .seq []
  | .unescape _ => .seq []
  | .frameEncodeNone _ => .seq []
  | .frameEncodeMod256 _ => .seq []
  | .frameEncodeCrc16 _ => .seq []
  | .frameDecodeNone _ => .frame none
  | .frameDecodeMod256 _ => .frame none
  | .frameDecodeCrc16 _ => .frame none
  | .tokAppend _ => .none
  | .tokNext => .token false []

end Sys2Proof.Machine
end

