-- ==== Sys2Proof/Machine/FrameCodec.lean ====
section
/-!
DEFINITION. The frame codec: the Command Catalog, FRAME_ENCODE and FRAME_DECODE (42_frame_codec.md R75-R92; the wire
format, 30_encoding.md R48-R53).
-/

namespace Sys2Proof.Machine

/-! ### The Command Catalog -/

/-- The entry of the first row of a catalog for a command code. -/
def catFind (cmd : Word) : List (Word × CatEntry) → Option CatEntry
  | [] => none
  | (c, e) :: rows => if c = cmd then some e else catFind cmd rows

/-- `lookup(cmd)`: `CAT(cmd)` when `cmd ∈ ENUM`; `none` where R75 raises UnknownCommand. -/
def lookup (cfg : Config) (cmd : Word) : Option CatEntry := catFind cmd cfg.catalog

/-- `cmd ∈ ENUM` (R9 (a), R75). -/
def inEnum (cfg : Config) (cmd : Word) : Bool := (lookup cfg cmd).isSome

/-- Whether a LenSpec accepts a payload length (R76). -/
def accepts : LenSpec → Nat → Bool
  | .exact m, n => n == m
  | .variable, _ => true

/-- The LenSpec of a frame's direction: `req` when it comes from the PC, else `resp` (R77, R88). -/
def lenSpecFor (e : CatEntry) (i : Information) : LenSpec := if fromPC i then e.req else e.resp

/-! ### FRAME_ENCODE -/

/-- The fixed dataOffset value 0x000C (R6, R49). -/
abbrev dataOffsetValue : Word := 0x000C#16

/-- The header length HDR, 12 bytes (R6, R7). -/
abbrev headerLength : Nat := 12

/-- The body of a frame before stuffing (R49). -/
def frameBody (f : FrameOperand) : Bytes :=
  f.address :: (le16 f.command ++ le16 dataOffsetValue ++ info7 f.information ++ f.data)

/-- The checksum field of a mode, computed over the whole body (R50, R61, R65). -/
def checksumField (m : Verification) (body : Bytes) : Bytes :=
  match m with
  | .none => []
  | .mod256 => [mod256 body]
  | .crc16 => le16 (crc16X25 body)

/-- A raw frame: the delimiters around the stuffed body and checksum field (R48). -/
def rawFrame (m : Verification) (body : Bytes) : Bytes :=
  sof :: (escape (body ++ checksumField m body) ++ [eof])

/-- `frame_encode(m, F)`: the two checks of R79 in their order, then the raw frame (R80). CAT's lengths play no part
(R78). -/
def frameEncode (cfg : Config) (m : Verification) (f : FrameOperand) : Except Status Bytes :=
  if inEnum cfg f.command = false then .error .unknownCommand
  else if ackLegal f.information.ack = false then .error .badInformation
  else .ok (rawFrame m (frameBody f))

/-! ### FRAME_DECODE -/

/-- `MINLEN(m)`, compared with the raw, still stuffed length (R82, R85). -/
def minLen : Verification → Nat
  | .none => 14
  | .mod256 => 15
  | .crc16 => 16

/-- Step 2 of R83: the first byte is 0x7E and the last is 0x7F. -/
def delimited (w : Bytes) : Bool := w.head? == some sof && w.getLast? == some eof

/-- `W[1 ..= |W|-2]`: the bytes between the first and the last (R13, R83 step 3). -/
def frameInterior (w : Bytes) : Bytes := (w.drop 1).take (w.length - 2)

/-- Step 4 of R83: the body that remains when the checksum field of the mode is stripped, or nothing where the provided
checksum differs from the computed one (R61, R65, R87). -/
def stripChecksum (m : Verification) (i : Bytes) : Option Bytes :=
  match m with
  | .none => some i
  | .mod256 =>
    let p := i.take (i.length - 1)
    if i.getD (i.length - 1) 0#8 = mod256 p then some p else none
  | .crc16 =>
    let p := i.take (i.length - 2)
    if rd16 i (i.length - 2) = crc16X25 p then some p else none

/-- Steps 5 to 7 of R83 on the body `p`: the body-length check (R86), the command, the dataOffset, the ack byte, and the
payload length against CAT, in this order (R84). -/
def parseBody (cfg : Config) (m : Verification) (p : Bytes) : Except Status Frame :=
  if p.length < headerLength then .error .frameTooShort
  else
    match lookup cfg (rd16 p 1) with
    | none => .error .unknownCommand
    | some entry =>
      if rd16 p 3 ≠ dataOffsetValue then .error .badDataOffset
      else if ackLegal (p.getD 5 0#8) = false then .error .badInformation
      else if accepts (lenSpecFor entry (readInformation p 5)) (p.drop headerLength).length = false then
        .error .payloadLengthMismatch
      else .ok {
        address := p.getD 0 0#8
        command := rd16 p 1
        dataOffset := dataOffsetValue
        information := readInformation p 5
        data := p.drop headerLength
        verification := m }

/-- `frame_decode(m, W)`: the first check that fails is reported (R83, R84); a Frame is whole or absent (R90). -/
def frameDecode (cfg : Config) (m : Verification) (w : Bytes) : Except Status Frame :=
  if w.length < minLen m then .error .frameTooShort
  else if delimited w = false then .error .badDelimiter
  else
    match stripChecksum m (unescape (frameInterior w)) with
    | none => .error .checksumMismatch
    | some p => parseBody cfg m p

/-! ### Round-trip notions (R91) -/

/-- "Syntactically valid" (R91): the command is in ENUM, the ack byte is legal, and the LenSpec of the frame's direction
accepts the payload length. -/
def syntacticallyValid (cfg : Config) (f : FrameOperand) : Bool :=
  match lookup cfg f.command with
  | none => false
  | some entry => ackLegal f.information.ack && accepts (lenSpecFor entry f.information) f.data.length

/-- The Frame that a frame operand describes in a mode (R89, R91). -/
def frameOf (m : Verification) (f : FrameOperand) : Frame where
  address := f.address
  command := f.command
  dataOffset := dataOffsetValue
  information := f.information
  data := f.data
  verification := m

/-! ### Meanings -/

/-- FRAME_ENCODE in a mode, over the state: it reads the parameters and no state (R17, R80). -/
def answerEncode (m : Verification) (f : FrameOperand) (s : State) : Host.Outcome State Fault Refusal :=
  answer (.seq []) ((frameEncode s.config m f).map .seq) s

/-- FRAME_DECODE in a mode, over the state: it reads the parameters and no state (R17, R83). -/
def answerDecode (m : Verification) (w : Bytes) (s : State) : Host.Outcome State Fault Refusal :=
  answer (.frame none) ((frameDecode s.config m w).map fun f => .frame (some f)) s

/-- FRAME_ENCODE, mode NONE, opword 0x0005 (R80). -/
def execFrameEncodeNone (f : FrameOperand) (s : State) : Host.Outcome State Fault Refusal :=
  answerEncode .none f s

/-- FRAME_ENCODE, mode MOD256, opword 0x0105 (R80). -/
def execFrameEncodeMod256 (f : FrameOperand) (s : State) : Host.Outcome State Fault Refusal :=
  answerEncode .mod256 f s

/-- FRAME_ENCODE, mode CRC16, opword 0x0205 (R80). -/
def execFrameEncodeCrc16 (f : FrameOperand) (s : State) : Host.Outcome State Fault Refusal :=
  answerEncode .crc16 f s

/-- FRAME_DECODE, mode NONE, opword 0x0006 (R83). -/
def execFrameDecodeNone (w : Bytes) (s : State) : Host.Outcome State Fault Refusal :=
  answerDecode .none w s

/-- FRAME_DECODE, mode MOD256, opword 0x0106 (R83, R87). -/
def execFrameDecodeMod256 (w : Bytes) (s : State) : Host.Outcome State Fault Refusal :=
  answerDecode .mod256 w s

/-- FRAME_DECODE, mode CRC16, opword 0x0206 (R83). -/
def execFrameDecodeCrc16 (w : Bytes) (s : State) : Host.Outcome State Fault Refusal :=
  answerDecode .crc16 w s

end Sys2Proof.Machine
end

