-- ==== Sys2Proof/Machine/Tokenizer.lean ====
section
/-!
DEFINITION. The streaming tokenizer, the only stateful unit: TOK_APPEND and TOK_NEXT (43_tokenizer.md R93-R103), each a
pure function on the buffer under a thin shell that holds it (R93).
-/

namespace Sys2Proof.Machine

/-- Whether a buffer of `n` bytes is within TOK_CAP (R9 (c), 10_state.md R16). -/
def withinCap : TokCap → Nat → Bool
  | .unbounded, _ => true
  | .cap c, n => n ≤ c

/-- `tok_append(D)`: the new B, or TokenizerOverflow where it would exceed `Cap n` (R95). -/
def tokAppend (cap : TokCap) (b d : Bytes) : Except Status Bytes :=
  if withinCap cap (b.length + d.length) then .ok (b ++ d) else .error .tokenizerOverflow

/-- The loop of TOK_NEXT with at most `n` classifications: the token, if any, and the new B (R96, R97). The five cases
are N (neither marker), T (complete frame), O (end before start), S (start only) and E (end only). One byte cannot be
both markers, so the branch beside case T is case O (C6). -/
def tokNextLoop : Nat → Bytes → Option Bytes × Bytes
  | 0, b => (none, b)
  | n + 1, b =>
    match first b sof, first b eof with
    | none, none => (none, b)
    | some s, some f =>
      if s < f then (some (slice b s f), b.drop (f + 1)) else tokNextLoop n (b.drop (f + 1))
    | some s, none => (none, b.drop s)
    | none, some f => tokNextLoop n (b.drop (f + 1))

/-- `tok_next()` on the buffer. One TOK_NEXT makes at most `|B| + 1` classifications (R98), so the bound never ends the
loop (DEDUCED from R98: log entry 12). -/
def tokNext (b : Bytes) : Option Bytes × Bytes := tokNextLoop (b.length + 1) b

/-- The result of TOK_NEXT: `(has_token, T)`, and `(0, [])` where there is no token (R43, D23). -/
def tokenResult : Option Bytes → Result
  | some t => .token true t
  | none => .token false []

/-- `n` times at most: take tokens until TOK_NEXT returns none (30_encoding.md R55, `tok.drain`). -/
def drainLoop : Nat → Bytes → List Bytes × Bytes
  | 0, b => ([], b)
  | n + 1, b =>
    match tokNext b with
    | (none, b') => ([], b')
    | (some t, b') => (t :: (drainLoop n b').1, (drainLoop n b').2)

/-- `tok.drain` on the buffer (R55): the tokens, in order, and the B that is left. A TOK_NEXT that returns a token removes
at least two bytes, so `|B| + 1` rounds are enough. -/
def drain (b : Bytes) : List Bytes × Bytes := drainLoop (b.length + 1) b

/-- TOK_APPEND, opword 0x0007 (R95). -/
def execTokAppend (d : Bytes) (s : State) : Host.Outcome State Fault Refusal :=
  answerBuffer .none ((tokAppend s.config.tokCap s.buffer d).map fun b => (.none, b)) s

/-- TOK_NEXT, opword 0x0008 (R96). -/
def execTokNext (s : State) : Host.Outcome State Fault Refusal :=
  answerBuffer (.token false []) (.ok (tokenResult (tokNext s.buffer).1, (tokNext s.buffer).2)) s

end Sys2Proof.Machine
end

