-- ==== Sys2Proof/Machine/Dispatch.lean ====
section
/-!
DEFINITION. Each instruction to its meaning.
-/

namespace Sys2Proof.Machine

/-- The operation rules of 30_encoding.md R44, one arm for each row. -/
def exec (i : Instr) (s : State) : Host.Outcome State Fault Refusal :=
  match i with
  | .crc16X25 d => Sys2Proof.Machine.execCrc16X25 d s
  | .mod256 d => Sys2Proof.Machine.execMod256 d s
  | .escape d => Sys2Proof.Machine.execEscape d s
  | .unescape d => Sys2Proof.Machine.execUnescape d s
  | .frameEncodeNone f => Sys2Proof.Machine.execFrameEncodeNone f s
  | .frameEncodeMod256 f => Sys2Proof.Machine.execFrameEncodeMod256 f s
  | .frameEncodeCrc16 f => Sys2Proof.Machine.execFrameEncodeCrc16 f s
  | .frameDecodeNone w => Sys2Proof.Machine.execFrameDecodeNone w s
  | .frameDecodeMod256 w => Sys2Proof.Machine.execFrameDecodeMod256 w s
  | .frameDecodeCrc16 w => Sys2Proof.Machine.execFrameDecodeCrc16 w s
  | .tokAppend d => Sys2Proof.Machine.execTokAppend d s
  | .tokNext => Sys2Proof.Machine.execTokNext s

end Sys2Proof.Machine
end

