-- ==== Sys2Proof/Machine/Accept.lean ====
section
/-!
DEFINITION. Serving what the host presents: one request, or a reset between operations.
-/

namespace Sys2Proof.Machine

/-- Serving one request (30_encoding.md R46, R47): the opword first; an illegal word raises IllegalOperation with the
operand unread and nothing performed; a legal one performs its operation. -/
def serve (r : Request) (s : State) : Host.Outcome State Fault Refusal :=
  match decode r with
  | .ok i => exec i s
  | .error (.illegalOperation _) => .next (s.raise .illegalOperation .none)

/-- The next thing the host presents is served; where it presents nothing the block waits unchanged
(10_state.md R18, 70_reset_and_hazards.md R119; log entries 6 and 14). -/
def acceptNext (s : State) : Host.Outcome State Fault Refusal :=
  match s.inputs with
  | [] => .next s
  | .reset :: rest => .next ({ s with inputs := rest }).resetBlock
  | .request r :: rest => serve r { s with inputs := rest }

end Sys2Proof.Machine
end

