-- ==== Sys2Proof/Machine/Step.lean ====
section
/-!
DEFINITION. One step of the machine: the block serves the next request in the host's issue order, whole and indivisibly
(20_memory.md R32, R36), and the host's placing of one table word on the request port.
-/

namespace Sys2Proof.Machine

/-- One step (R32, R36, R131: each operation is one atomic step). -/
def step (s : State) : Host.Outcome State Fault Refusal := acceptNext s

/-- The state in which the host presents the request of one opcode-table word next, everything else unchanged
(log entry 1). -/
def State.withFetchWord (s : State) (nbits w : Nat) : State := s.present (Sys2Proof.tableRequest nbits w)

end Sys2Proof.Machine
end

