-- ==== Sys2Proof/Machine/Assembler.lean ====
section
/-!
DEFINITION. The assembler syntax and the host loops it abbreviates (30_encoding.md R54, R55): the text of a line, the request
it assembles to, and the pseudo-instructions, each of which "expands into block operations that the host issues". Nothing
here is part of the block: `step` uses none of it. The lexical details R54 leaves open are log entry 13.
-/

namespace Sys2Proof.Machine

/-! ### Lexical form -/

/-- The tokens of a line. A word is a mnemonic, a name or a number. -/
inductive AsmToken where
  | word (cs : List Char)
  | openBracket
  | closeBracket
  | openBrace
  | closeBrace
  | openParen
  | closeParen
  | comma
  | equals
  | arrow
deriving DecidableEq, Repr

/-- The characters of mnemonics, names and numbers. -/
def asmWordChar (c : Char) : Bool := c.isAlphanum || c == '_' || c == '.'

/-- Spaces between tokens. -/
def asmSpace (c : Char) : Bool := c == ' ' || c == '\t' || c == '\r'

/-- The one-character tokens. The braces are U+007B and U+007D. -/
def asmPunctuation (c : Char) : Option AsmToken :=
  if c = '[' then some .openBracket
  else if c = ']' then some .closeBracket
  else if c = Char.ofNat 0x7B then some .openBrace
  else if c = Char.ofNat 0x7D then some .closeBrace
  else if c = '(' then some .openParen
  else if c = ')' then some .closeParen
  else if c = ',' then some .comma
  else if c = '=' then some .equals
  else none

/-- The word collected so far (in reverse), if any, before the tokens that follow it. -/
def asmFlush (acc : List Char) (ts : List AsmToken) : List AsmToken :=
  if acc.isEmpty then ts else .word acc.reverse :: ts

/-- The tokens of a line; a `;` starts a comment that runs to its end (R54). -/
def asmLex : List Char → List Char → Option (List AsmToken)
  | [], acc => some (asmFlush acc [])
  | '-' :: '>' :: cs, acc => (asmLex cs []).map fun ts => asmFlush acc (.arrow :: ts)
  | c :: cs, acc =>
    if c = ';' then some (asmFlush acc [])
    else if asmWordChar c then asmLex cs (c :: acc)
    else if asmSpace c then (asmLex cs []).map (asmFlush acc)
    else (asmPunctuation c).bind fun t => (asmLex cs []).map fun ts => asmFlush acc (t :: ts)

/-- The value of one hexadecimal digit. -/
def asmHexDigit (c : Char) : Option Nat :=
  if '0' ≤ c ∧ c ≤ '9' then some (c.toNat - 48)
  else if 'A' ≤ c ∧ c ≤ 'F' then some (c.toNat - 55)
  else if 'a' ≤ c ∧ c ≤ 'f' then some (c.toNat - 87)
  else none

/-- Hexadecimal digits after the value `n` read so far. -/
def asmHexFrom : Nat → List Char → Option Nat
  | n, [] => some n
  | n, c :: cs => (asmHexDigit c).bind fun d => asmHexFrom (16 * n + d) cs

/-- A number: `0x` and hexadecimal digits, or the single digit `0` that the programs of 95_test_vectors.md L3 write. -/
def asmNumber : List Char → Option Nat
  | ['0'] => some 0
  | '0' :: 'x' :: c :: cs => asmHexFrom 0 (c :: cs)
  | _ => none

/-- A number that fits in `n` bits; a larger one is no value of the field (R43). -/
def asmField (n : Nat) (cs : List Char) : Option (BitVec n) :=
  (asmNumber cs).bind fun v => if v < 2 ^ n then some (BitVec.ofNat n v) else none

/-! ### Lines -/

/-- A Seq operand: a list of bytes, or a name bound earlier (R54). -/
inductive AsmSeq where
  | bytes (d : Bytes)
  | name (n : List Char)
deriving DecidableEq, Repr

/-- The operand of a line (R54). -/
inductive AsmOperand where
  | none
  | seq (e : AsmSeq)
  | frame (address : Byte) (command : Word) (information : Information) (data : AsmSeq)
deriving DecidableEq, Repr

/-- What follows the arrow: nothing, one name, or the pair of names of a `tok.next` result (R54). -/
inductive AsmBinding where
  | none
  | one (n : List Char)
  | token (hasToken t : List Char)
deriving DecidableEq, Repr

/-- One line: `mnemonic operand`, then optionally `-> name` (R54). -/
structure AsmLine where
  mnemonic : List Char
  operand : AsmOperand
  binding : AsmBinding
deriving DecidableEq, Repr

/-- One or more bytes separated by commas, up to the closing bracket. -/
def asmBytes : List AsmToken → Option (Bytes × List AsmToken)
  | .word w :: .closeBracket :: ts => (asmField 8 w).map fun b => ([b], ts)
  | .word w :: .comma :: ts =>
    (asmField 8 w).bind fun b => (asmBytes ts).map fun p => (b :: p.1, p.2)
  | _ => none

/-- A Seq operand (R54). -/
def asmSeq : List AsmToken → Option (AsmSeq × List AsmToken)
  | .openBracket :: .closeBracket :: ts => some (.bytes [], ts)
  | .openBracket :: ts => (asmBytes ts).map fun p => (.bytes p.1, p.2)
  | .word n :: ts => some (.name n, ts)
  | _ => none

/-- `key=number`, a field of `n` bits. -/
def asmKeyed (n : Nat) (key : String) : List AsmToken → Option (BitVec n × List AsmToken)
  | .word k :: .equals :: .word v :: ts =>
    if k = key.toList then (asmField n v).map fun x => (x, ts) else none
  | _ => none

/-- `key=` before a record or a Seq. -/
def asmKey (key : String) : List AsmToken → Option (List AsmToken)
  | .word k :: .equals :: ts => if k = key.toList then some ts else none
  | _ => none

/-- One expected token. -/
def asmExpect (t : AsmToken) : List AsmToken → Option (List AsmToken)
  | u :: ts => if u = t then some ts else none
  | [] => none

/-- The information record of a frame operand, from its opening brace on (R54). -/
def asmInformation (ts : List AsmToken) : Option (Information × List AsmToken) := do
  let ts ← asmExpect .openBrace ts
  let (ack, ts) ← asmKeyed 8 "ack" ts
  let ts ← asmExpect .comma ts
  let (nr, ts) ← asmKeyed 16 "nr" ts
  let ts ← asmExpect .comma ts
  let (dev, ts) ← asmKeyed 16 "dev" ts
  let ts ← asmExpect .comma ts
  let (st, ts) ← asmKeyed 16 "st" ts
  let ts ← asmExpect .closeBrace ts
  return (⟨ack, nr, dev, st⟩, ts)

/-- A FRAME_ENCODE operand, from its opening brace on (R54). -/
def asmFrame (ts : List AsmToken) : Option (AsmOperand × List AsmToken) := do
  let ts ← asmExpect .openBrace ts
  let (address, ts) ← asmKeyed 8 "addr" ts
  let ts ← asmExpect .comma ts
  let (command, ts) ← asmKeyed 16 "cmd" ts
  let ts ← asmExpect .comma ts
  let ts ← asmKey "info" ts
  let (information, ts) ← asmInformation ts
  let ts ← asmExpect .comma ts
  let ts ← asmKey "data" ts
  let (data, ts) ← asmSeq ts
  let ts ← asmExpect .closeBrace ts
  return (.frame address command information data, ts)

/-- The operand after a mnemonic (R54). -/
def asmOperand : List AsmToken → Option (AsmOperand × List AsmToken)
  | [] => some (.none, [])
  | .arrow :: ts => some (.none, .arrow :: ts)
  | .openBrace :: ts => asmFrame (.openBrace :: ts)
  | ts => (asmSeq ts).map fun p => (.seq p.1, p.2)

/-- The optional `-> name` or `-> (has_token, T)` (R54). -/
def asmBinding : List AsmToken → Option AsmBinding
  | [] => some .none
  | [.arrow, .word n] => some (.one n)
  | [.arrow, .openParen, .word h, .comma, .word t, .closeParen] => some (.token h t)
  | _ => none

/-- A line from its tokens. A text with no token, empty or a comment only, is no line: R54 writes one operation per line
and does not say whether such a text is a line (DESIGN CHOICE: log entry 13). -/
def asmLineOfTokens : List AsmToken → Option AsmLine
  | .word m :: ts =>
    (asmOperand ts).bind fun p => (asmBinding p.2).map fun b => ⟨m, p.1, b⟩
  | _ => none

/-- A line from its text (R54); none for a text that is no line (log entry 13). -/
def asmLine (text : List Char) : Option AsmLine := (asmLex text []).bind asmLineOfTokens

/-! ### The assembled form -/

/-- The mnemonics and operation words of R44. -/
def asmMnemonics : List (String × Word) :=
  [("crc16_x25", 0x0001#16), ("mod256", 0x0002#16), ("escape", 0x0003#16), ("unescape", 0x0004#16),
    ("frame.encode.none", 0x0005#16), ("frame.encode.mod256", 0x0105#16), ("frame.encode.crc16", 0x0205#16),
    ("frame.decode.none", 0x0006#16), ("frame.decode.mod256", 0x0106#16), ("frame.decode.crc16", 0x0206#16),
    ("tok.append", 0x0007#16), ("tok.next", 0x0008#16)]

/-- The operation word of a mnemonic. -/
def asmOpword (m : List Char) : Option Word :=
  (asmMnemonics.find? fun p => p.1.toList == m).map Prod.snd

/-- The values a name can be bound to. -/
inductive AsmValue where
  | result (r : Result)
  | flag (hasToken : Bool)
  | seq (t : Bytes)
  | tokens (ts : List Bytes)
  | status (e : Status)
deriving DecidableEq, Repr

/-- The bindings made by earlier lines, the latest first. -/
abbrev AsmEnv := List (List Char × AsmValue)

/-- The Seq a Seq operand stands for. -/
def asmSeqValue (env : AsmEnv) : AsmSeq → Option Bytes
  | .bytes d => some d
  | .name n =>
    match env.lookup n with
    | some (.result (.seq e)) => some e
    | some (.seq t) => some t
    | _ => none

/-- The operand value of a line for an operation word: the shape must be the one R43 gives the operation. -/
def asmOperandValue (env : AsmEnv) (w : Word) : AsmOperand → Option Operand
  | .none => if w = 0x0008#16 then some ⟨[], zeroFrameOperand⟩ else none
  | .seq e =>
    if w = 0x0008#16 ∨ w = 0x0005#16 ∨ w = 0x0105#16 ∨ w = 0x0205#16 then none
    else (asmSeqValue env e).map fun d => ⟨d, zeroFrameOperand⟩
  | .frame a c i e =>
    if w = 0x0005#16 ∨ w = 0x0105#16 ∨ w = 0x0205#16 then
      (asmSeqValue env e).map fun d => ⟨[], ⟨a, c, i, d⟩⟩
    else none

/-- "The assembled form of a line is its 16-bit opword (rule R44) followed by its operand value" (R54). -/
def assemble (env : AsmEnv) (l : AsmLine) : Option Request :=
  (asmOpword l.mnemonic).bind fun w => (asmOperandValue env w l.operand).map fun o => ⟨w, o⟩

/-! ### Running lines: the host -/

/-- The host presents a request, the block serves it, and the host takes the response (R40). -/
def issue (r : Request) (s : State) : Option (Response × State) :=
  match step (s.present r) with
  | .next s' => s'.responses.getLast?.map fun x => (x, s')
  | .fault _ => none
  | .refused _ => none

/-- `tok.drain` (R55): repeat TOK_NEXT, and while has_token = 1 collect the token; at most `n` rounds. -/
def issueDrain : Nat → State → Option (List Bytes × State)
  | 0, _ => none
  | n + 1, s =>
    match issue (encode .tokNext) s with
    | some (⟨_, .token true t⟩, s') => (issueDrain n s').map fun p => (t :: p.1, p.2)
    | some (_, s') => some ([], s')
    | none => none

/-- `tok.feed D` (R55): TOK_APPEND, then `tok.drain`. A TOK_NEXT that returns a token takes at least two bytes from B, so
`|B| + 1` rounds are enough. -/
def issueFeed (d : Bytes) (s : State) : Option (List Bytes × State) :=
  (issue (encode (.tokAppend d)) s).bind fun p => issueDrain (p.2.buffer.length + 1) p.2

/-- A host that feeds chunk after chunk, draining after every TOK_APPEND (43_tokenizer.md R102): the tokens it collects, in
order, and the state it ends with. -/
def issueFeedAll : List Bytes → State → Option (List Bytes × State)
  | [], s => some ([], s)
  | d :: ds, s =>
    (issueFeed d s).bind fun p => (issueFeedAll ds p.2).map fun q => (p.1 ++ q.1, q.2)

/-- `frame.check.<m> W` (R55): FRAME_DECODE with the Frame discarded and only the status kept. -/
def issueCheck (m : Verification) (w : Bytes) (s : State) : Option (Status × State) :=
  (issue (encode (frameDecodeInstr m w)) s).map fun p => (p.1.status, p.2)

/-- The pseudo-instructions of R55. -/
inductive AsmPseudo where
  | drain
  | feed
  | check (m : Verification)
deriving DecidableEq, Repr

/-- The pseudo-instruction of a mnemonic, if it is one (R55). -/
def asmPseudo (m : List Char) : Option AsmPseudo :=
  if m = "tok.drain".toList then some .drain
  else if m = "tok.feed".toList then some .feed
  else if m = "frame.check.none".toList then some (.check .none)
  else if m = "frame.check.mod256".toList then some (.check .mod256)
  else if m = "frame.check.crc16".toList then some (.check .crc16)
  else none

/-- The bindings after a line whose value is `v`. -/
def asmBind (b : AsmBinding) (v : AsmValue) (env : AsmEnv) : Option AsmEnv :=
  match b, v with
  | .none, _ => some env
  | .one n, v => some ((n, v) :: env)
  | .token h t, .result (.token f bytes) => some ((t, .seq bytes) :: (h, .flag f) :: env)
  | .token _ _, _ => none

/-- Running one line: a pseudo-instruction through its expansion, any other through its assembled request. The list L of
`tok.drain` and `tok.feed` starts empty, and L is bound anew to it, also where L already names a list: R55 does not say
what L holds at the start (DESIGN CHOICE: log entry 13). -/
def asmRunLine (l : AsmLine) (env : AsmEnv) (s : State) : Option (AsmEnv × State) :=
  match asmPseudo l.mnemonic, l.operand with
  | some .drain, .none =>
    (issueDrain (s.buffer.length + 1) s).bind fun p => (asmBind l.binding (.tokens p.1) env).map fun e => (e, p.2)
  | some .feed, .seq q =>
    (asmSeqValue env q).bind fun d => (issueFeed d s).bind fun p =>
      (asmBind l.binding (.tokens p.1) env).map fun e => (e, p.2)
  | some (.check m), .seq q =>
    (asmSeqValue env q).bind fun w => (issueCheck m w s).bind fun p =>
      (asmBind l.binding (.status p.1) env).map fun e => (e, p.2)
  | some _, _ => none
  | none, _ =>
    (assemble env l).bind fun r => (issue r s).bind fun p =>
      (asmBind l.binding (.result p.1.result) env).map fun e => (e, p.2)

/-- Running lines in order (R36). -/
def asmRun : List AsmLine → AsmEnv → State → Option (AsmEnv × State)
  | [], env, s => some (env, s)
  | l :: ls, env, s => (asmRunLine l env s).bind fun p => asmRun ls p.1 p.2

end Sys2Proof.Machine
end

