-- ==== Sys2Proof/Machine/Reference.lean ====
section
/-!
DEFINITION. The other forms in which the spec describes an algorithm and says that they give the same result: the CRC one
bit at a time (40_checksum.md R58), ESCAPE as three whole-buffer replacements (41_byte_stuffer.md R69), UNESCAPE by index
(R70) and by the source's backward scan (R71). The machine uses none of them; statements compare them with what it uses.
-/

namespace Sys2Proof.Machine

/-! ### The CRC one bit at a time -/

/-- The bits of a byte, least significant first (R58). -/
def bitsLowFirst (b : Byte) : List Bool := (List.range 8).map fun k => b.getLsbD k

/-- One bit enters the CRC register: it meets the register's low bit, then the register shifts right (R57, R58). -/
def crcBit (r : Word) (x : Bool) : Word :=
  if r.getLsbD 0 ^^ x then (r >>> 1) ^^^ 0x8408#16 else r >>> 1

/-! ### ESCAPE as three replacements -/

/-- Every `b` of the buffer replaced by its escape code, every other byte kept. -/
def replaceAll (b : Byte) (d : Bytes) : Bytes := d.flatMap fun c => if c = b then [0x7D#8, c ^^^ 0x20#8] else [c]

/-- The three whole-buffer replacements in the source's order: 0x7D, then 0x7E, then 0x7F (R69). -/
def escapeByReplacement (d : Bytes) : Bytes := replaceAll 0x7F#8 (replaceAll 0x7E#8 (replaceAll 0x7D#8 d))

/-! ### UNESCAPE by index, and backward -/

/-- Whether a pair starts at index `i` (R70, R71). -/
def pairAt (d : Bytes) (i : Nat) : Bool :=
  d[i]? == some 0x7D#8 && (d[i + 1]? == some 0x5D#8 || d[i + 1]? == some 0x5E#8 || d[i + 1]? == some 0x5F#8)

/-- The loop of R70 from index `i` with output `u`, for at most `n` rounds. -/
def unescapeAt (d : Bytes) : Nat → Nat → Bytes → Bytes
  | 0, _, u => u
  | n + 1, i, u =>
    if i < d.length then
      if pairAt d i then unescapeAt d n (i + 2) (u ++ [d.getD (i + 1) 0#8 ^^^ 0x20#8])
      else unescapeAt d n (i + 1) (u ++ [d.getD i 0#8])
    else u

/-- UNESCAPE as R70 writes it; each round moves the index on, so `|D|` rounds are enough. -/
def unescapeByIndex (d : Bytes) : Bytes := unescapeAt d d.length 0 []

/-- The backward in-place scan of R71 at the indices below `n`, the highest first: a pair is replaced at its index and the
next byte is deleted. -/
def unescapeBackAt : Nat → Bytes → Bytes
  | 0, d => d
  | n + 1, d =>
    unescapeBackAt n (if pairAt d n then (d.set n (d.getD (n + 1) 0#8 ^^^ 0x20#8)).eraseIdx (n + 1) else d)

/-- The backward scan, "for i from |D|-2 down to 0" (R71). -/
def unescapeBackward (d : Bytes) : Bytes := unescapeBackAt (d.length - 1) d

end Sys2Proof.Machine
end

