-- ==== Sys2Proof/Machine/Flags.lean ====
section
/-!
DEFINITION. The status output. The block has no flag register and no condition codes (10_state.md R19): "Flags written"
always names only the status output (00_scope.md R12). Here are its numeric codes (60_exceptions.md R104) and which
operation can return which status (R105).
-/

namespace Sys2Proof.Machine

/-- The 8-bit status code (R104). -/
def Status.code : Status → BitVec 8
  | .ok => 0x00#8
  | .frameTooShort => 0x01#8
  | .badDelimiter => 0x02#8
  | .checksumMismatch => 0x03#8
  | .unknownCommand => 0x04#8
  | .badDataOffset => 0x05#8
  | .badInformation => 0x06#8
  | .payloadLengthMismatch => 0x07#8
  | .encodingValueError => 0x08#8
  | .incorrectByteCount => 0x09#8
  | .illegalOperation => 0x0A#8
  | .tokenizerOverflow => 0x0B#8

/-- The statuses FRAME_ENCODE can return once its word is legal (R105). -/
def encodeStatuses : List Status := [.ok, .unknownCommand, .badInformation]

/-- The statuses FRAME_DECODE can return once its word is legal (R105). -/
def decodeStatuses : List Status :=
  [.ok, .frameTooShort, .badDelimiter, .checksumMismatch, .unknownCommand, .badDataOffset, .badInformation,
    .payloadLengthMismatch]

/-- Which statuses an operation can return once its word is legal (R105). IllegalOperation is the only other one, and it
is returned before any operation is selected (R46). -/
def statusesOf : Instr → List Status
  | .crc16X25 _ => [.ok]
  | .mod256 _ => [.ok]
  | .escape _ => [.ok]
  | .unescape _ => [.ok]
  | .frameEncodeNone _ => encodeStatuses
  | .frameEncodeMod256 _ => encodeStatuses
  | .frameEncodeCrc16 _ => encodeStatuses
  | .frameDecodeNone _ => decodeStatuses
  | .frameDecodeMod256 _ => decodeStatuses
  | .frameDecodeCrc16 _ => decodeStatuses
  | .tokAppend _ => [.ok, .tokenizerOverflow]
  | .tokNext => [.ok]

end Sys2Proof.Machine
end

