-- ==== Sys2Proof/Safety.lean ====
section
/-!
DEFINITION. What counts as a safe state, in the terms the statements use: the buffer within TOK_CAP (10_state.md R16), and
every response given so far one that the block may give (30_encoding.md R42, 60_exceptions.md R104, 42_frame_codec.md R90,
43_tokenizer.md R99).
-/

namespace Sys2Proof.Safety

open Sys2Proof.Machine

/-- B "holds at most n bytes when `TOK_CAP = Cap n`" (R16). -/
def BufferFits (s : State) : Prop := withinCap s.config.tokCap s.buffer.length = true

/-- The empty value of some result shape (R42). -/
def isEmptyResult : Result → Bool
  | .none => true
  | .word c => c == 0#16
  | .byte b => b == 0#8
  | .seq e => e.isEmpty
  | .frame f => f.isNone
  | .token h t => !h && t.isEmpty

/-- What R99 says of a token: at least two bytes, 0x7E first, 0x7F last and nowhere before. -/
def IsToken (t : Bytes) : Prop :=
  2 ≤ t.length ∧ t.head? = some 0x7E#8 ∧ t.getLast? = some 0x7F#8 ∧ 0x7F#8 ∉ t.dropLast

/-- The frame operand with the fields of a Frame. -/
def operandOfFrame (f : Frame) : FrameOperand := ⟨f.address, f.command, f.information, f.data⟩

/-- A Frame "in which every field is parsed and validated" (R90, R91), with the fixed dataOffset (R89). -/
def FrameValidated (cfg : Config) (f : Frame) : Prop :=
  f.dataOffset = 0x000C#16 ∧ syntacticallyValid cfg (operandOfFrame f) = true

/-- A response the block may give: an error carries an empty result (R42), the two codes of the payload codecs are never
used (R104), a Frame is validated (R90), and a token has the shape of R99. -/
def ResponseSound (cfg : Config) (x : Response) : Prop :=
  (x.status ≠ .ok → isEmptyResult x.result = true) ∧
  x.status ≠ .encodingValueError ∧ x.status ≠ .incorrectByteCount ∧
  (∀ f, x.result = .frame (some f) → FrameValidated cfg f) ∧
  (∀ t, x.result = .token true t → IsToken t)

/-- The invariant of the machine. -/
def Inv (s : State) : Prop :=
  BufferFits s ∧ ∀ x ∈ s.responses, ResponseSound s.config x

/-- The requests among what the host has presented, in its order. -/
def requestsOf : List HostInput → List Request
  | [] => []
  | .request r :: rest => r :: requestsOf rest
  | .reset :: rest => requestsOf rest

/-- A response that the request may be given: a status R105 lists for its operation, with the operation's empty result
where that is not OK (R42), or IllegalOperation where its word is illegal (R46). -/
def AnswersRequest (r : Request) (x : Response) : Prop :=
  match decode r with
  | .ok i => x.status ∈ statusesOf i ∧ (x.status ≠ .ok → x.result = emptyResult i)
  | .error _ => x.status = .illegalOperation

/-- The raw frame of R48 to R50 spelt out from the fields of the operand, for a checksum field `chk`. -/
def rawFrameBytes (f : FrameOperand) (chk : Bytes → Bytes) : Bytes :=
  let body := [f.address, f.command.extractLsb' 0 8, f.command.extractLsb' 8 8, 0x0C#8, 0x00#8, f.information.ack,
    f.information.nr.extractLsb' 0 8, f.information.nr.extractLsb' 8 8,
    f.information.devStatus.extractLsb' 0 8, f.information.devStatus.extractLsb' 8 8,
    f.information.status.extractLsb' 0 8, f.information.status.extractLsb' 8 8] ++ f.data
  [0x7E#8] ++ escape (body ++ chk body) ++ [0x7F#8]

end Sys2Proof.Safety
end

