-- ==== Sys2Proof/Certificates/Slice0/Obligations.lean ====
section
/-!
DEFINITION. The statements for the provers. Statements over every state hold of every configuration, since the
configuration is a field of State (log entry 3).
-/

open Sys2Proof Sys2Proof.Machine Sys2Proof.Safety

/-! ### The interface: decoding, serving, reset -/

/-- R41, R44, R45: words written out field by field decode to the operations of the table. -/
def Obligations.WrittenOutWordsDecode : Prop :=
  ∀ o : Operand,
    decode ⟨0b000000_00_00000001#16, o⟩ = .ok (.crc16X25 o.seq) ∧
    decode ⟨0b000000_00_00000010#16, o⟩ = .ok (.mod256 o.seq) ∧
    decode ⟨0b000000_00_00000011#16, o⟩ = .ok (.escape o.seq) ∧
    decode ⟨0b000000_00_00000100#16, o⟩ = .ok (.unescape o.seq) ∧
    decode ⟨0b000000_00_00000101#16, o⟩ = .ok (.frameEncodeNone o.frame) ∧
    decode ⟨0b000000_01_00000101#16, o⟩ = .ok (.frameEncodeMod256 o.frame) ∧
    decode ⟨0b000000_10_00000101#16, o⟩ = .ok (.frameEncodeCrc16 o.frame) ∧
    decode ⟨0b000000_00_00000110#16, o⟩ = .ok (.frameDecodeNone o.seq) ∧
    decode ⟨0b000000_01_00000110#16, o⟩ = .ok (.frameDecodeMod256 o.seq) ∧
    decode ⟨0b000000_10_00000110#16, o⟩ = .ok (.frameDecodeCrc16 o.seq) ∧
    decode ⟨0b000000_00_00000111#16, o⟩ = .ok (.tokAppend o.seq) ∧
    decode ⟨0b000000_00_00001000#16, o⟩ = .ok .tokNext

/-- Encoding an instruction and decoding the request gives the instruction back. -/
def Obligations.DecodeOfEncode : Prop :=
  ∀ i : Instr, decode (encode i) = .ok i

/-- No bit of an operation word and no part of an operand is dropped: what decodes to `i` has `i`'s word and carries
exactly the operand `i` reads. -/
def Obligations.DecodedRequestEncodesBack : Prop :=
  ∀ (r : Request) (i : Instr), decode r = .ok i ↔
    r.opword = (encode i).opword ∧
    (readsSeq i = true → r.operand.seq = (encode i).operand.seq) ∧
    (readsFrame i = true → r.operand.frame = (encode i).operand.frame)

/-- R46: a word is decoded exactly when none of the four conditions makes it illegal. -/
def Obligations.DecodeAcceptsExactlyLegalWords : Prop :=
  ∀ r : Request, ((∃ i, decode r = .ok i) ↔ WellFormed.opwordLegal r.opword = true) ∧
    (decode r = .error (.illegalOperation r.opword) ↔ WellFormed.opwordLegal r.opword = false)

/-- A step serves the next request in the host's order: it takes it off the host's list (the model's field, log entry 1)
and runs the decoded instruction. -/
def Obligations.StepRunsDecodedRequest : Prop :=
  ∀ (s : State) (r : Request) (rest : List HostInput) (i : Instr),
    s.inputs = .request r :: rest → decode r = .ok i → step s = exec i { s with inputs := rest }

/-- R46: an illegal word raises IllegalOperation; B is unchanged; the operand makes no difference. Which empty result the
response carries is the model's choice (log entry 5) and is left open here. -/
def Obligations.IllegalWordRaisesIllegalOperation : Prop :=
  ∀ (s : State) (r : Request) (rest : List HostInput),
    s.inputs = .request r :: rest → WellFormed.opwordLegal r.opword = false →
    (∃ e : Result, step s =
      .next { s with inputs := rest, responses := s.responses ++ [⟨.illegalOperation, e⟩] }) ∧
    ∀ o : Operand, step { s with inputs := .request ⟨r.opword, o⟩ :: rest } = step s

/-- The model's choice (log entry 6): with nothing presented the block waits unchanged. -/
def Obligations.BlockWaitsWithoutRequest : Prop :=
  ∀ s : State, s.inputs = [] → step s = .next s

/-- Reset presented between operations empties B and changes nothing else of the block (R119, R120). That a reset is one of
the things the host presents is the model's choice (log entry 14). -/
def Obligations.ResetInputEmptiesBuffer : Prop :=
  ∀ (s : State) (rest : List HostInput), s.inputs = .reset :: rest →
    step s = .next { s with inputs := rest, buffer := [] }

/-- After reset B is empty (R26), TOK_CAP has its default Unbounded (R9 (c)), and ENUM holds the one command the source identifies (R9 (a)); that the block out of reset
has that command is read from R9 (log entry 3). -/
def Obligations.ResetStateOfBlock : Prop :=
  State.reset.buffer = [] ∧ State.reset.config.tokCap = .unbounded ∧ inEnum State.reset.config 0x0018#16 = true

/-- R104: the numeric status codes, all different, none above 0x0B. -/
def Obligations.StatusCodesAreDistinct : Prop :=
  (∀ e₁ e₂ : Status, e₁.code = e₂.code → e₁ = e₂) ∧ (∀ e : Status, e.code.toNat ≤ 0x0B) ∧
  Status.ok.code = 0x00#8 ∧ Status.frameTooShort.code = 0x01#8 ∧ Status.badDelimiter.code = 0x02#8 ∧
  Status.checksumMismatch.code = 0x03#8 ∧ Status.unknownCommand.code = 0x04#8 ∧
  Status.badDataOffset.code = 0x05#8 ∧ Status.badInformation.code = 0x06#8 ∧
  Status.payloadLengthMismatch.code = 0x07#8 ∧ Status.encodingValueError.code = 0x08#8 ∧
  Status.incorrectByteCount.code = 0x09#8 ∧ Status.illegalOperation.code = 0x0A#8 ∧
  Status.tokenizerOverflow.code = 0x0B#8

/-! ### The checksum engine -/

/-- CRC16_X25 answers OK with the complement of the register that starts at 0xFFFF and takes the bytes in order, each byte
least significant bit first (R58, R59, R60). -/
def Obligations.Crc16X25AnswersBitSerialCrc : Prop :=
  ∀ (d : Bytes) (s : State),
    exec (.crc16X25 d) s = .next { s with responses := s.responses ++
      [⟨.ok, .word ((d.flatMap bitsLowFirst).foldl crcBit 0xFFFF#16 ^^^ 0xFFFF#16)⟩] }

/-- Two sequences that differ in exactly one byte have different CRCs. -/
def Obligations.CrcDetectsOneChangedByte : Prop :=
  ∀ (pre post : Bytes) (b c : Byte), b ≠ c → crc16X25 (pre ++ b :: post) ≠ crc16X25 (pre ++ c :: post)

/-- The register after a sequence and its own CRC, low byte first, is the same constant for every sequence. -/
def Obligations.CrcResidueIsConstant : Prop :=
  ∀ d : Bytes, crcFold 0xFFFF#16 (d ++ le16 (crc16X25 d)) = 0xF0B8#16

/-- MOD256 answers OK with the sum of the operand's bytes modulo 256 (R62, R63). -/
def Obligations.Mod256AnswersByteSum : Prop :=
  ∀ (d : Bytes) (s : State), ∃ v : Byte,
    exec (.mod256 d) s = .next { s with responses := s.responses ++ [⟨.ok, .byte v⟩] } ∧
    v.toNat = (d.map BitVec.toNat).sum % 256

/-- R66: the sum of a concatenation is the wrapping sum of the sums. -/
def Obligations.Mod256OfConcatenation : Prop :=
  ∀ x y : Bytes, mod256 (x ++ y) = mod256 x + mod256 y

/-! ### The byte stuffer -/

/-- R68: ESCAPE answers OK with each reserved byte as its pair and each other byte as itself, in order, so the length grows
by the number of reserved bytes. -/
def Obligations.EscapeAnswersByteMap : Prop :=
  ∀ (d : Bytes) (s : State), ∃ e : Bytes,
    exec (.escape d) s = .next { s with responses := s.responses ++ [⟨.ok, .seq e⟩] } ∧
    e = d.flatMap (fun b =>
      if b ∈ [0x7D#8, 0x7E#8, 0x7F#8] then [0x7D#8, b ^^^ 0x20#8] else [b]) ∧
    e.length = d.length + d.countP (fun b => b ∈ [0x7D#8, 0x7E#8, 0x7F#8])

/-- R69: the forward pass gives the three whole-buffer replacements in the order 0x7D, 0x7E, 0x7F; replacing 0x7E first
does not. -/
def Obligations.EscapeIsThreeReplacements : Prop :=
  (∀ d : Bytes, escape d = escapeByReplacement d) ∧
  replaceAll 0x7D#8 (replaceAll 0x7E#8 [0x7E#8]) = [0x7D#8, 0x5D#8, 0x5E#8] ∧
  escape [0x7E#8] = [0x7D#8, 0x5E#8]

/-- R70: UNESCAPE answers OK with the result of the index loop. -/
def Obligations.UnescapeAnswersIndexLoop : Prop :=
  ∀ (d : Bytes) (s : State),
    exec (.unescape d) s = .next { s with responses := s.responses ++ [⟨.ok, .seq (unescapeByIndex d)⟩] }

/-- R71: the source's backward in-place scan gives the same result as the forward pairing. -/
def Obligations.UnescapeEqualsBackwardScan : Prop :=
  ∀ d : Bytes, unescape d = unescapeBackward d

/-- R72: the round-trip law, its failing converse, and the image of escape on which the converse holds. -/
def Obligations.UnescapeOfEscape : Prop :=
  (∀ x : Bytes, unescape (escape x) = x) ∧
  escape (unescape [0x7E#8]) = [0x7D#8, 0x5E#8] ∧
  (∀ y : Bytes, (∃ x, escape x = y) → escape (unescape y) = y)

/-- R73: no delimiter in a stuffed sequence, and every 0x7D begins a pair. -/
def Obligations.EscapedHasNoDelimiter : Prop :=
  ∀ x : Bytes, 0x7E#8 ∉ escape x ∧ 0x7F#8 ∉ escape x ∧
    ∀ i : Nat, (escape x)[i]? = some 0x7D#8 →
      (escape x)[i + 1]? = some 0x5D#8 ∨ (escape x)[i + 1]? = some 0x5E#8 ∨ (escape x)[i + 1]? = some 0x5F#8

/-! ### FRAME_ENCODE -/

/-- FRAME_ENCODE of a command in ENUM with a legal ack byte answers OK with the raw frame, in each mode with the checksum
field of R50 (R48, R49, R80). -/
def Obligations.FrameEncodeAnswersRawFrame : Prop :=
  ∀ (f : FrameOperand) (s : State), inEnum s.config f.command = true →
    f.information.ack ∈ [0x00#8, 0x06#8, 0x15#8] →
    exec (.frameEncodeNone f) s = .next { s with responses := s.responses ++
      [⟨.ok, .seq (rawFrameBytes f fun _ => [])⟩] } ∧
    exec (.frameEncodeMod256 f) s = .next { s with responses := s.responses ++
      [⟨.ok, .seq (rawFrameBytes f fun body => [mod256 body])⟩] } ∧
    exec (.frameEncodeCrc16 f) s = .next { s with responses := s.responses ++
      [⟨.ok, .seq (rawFrameBytes f fun body =>
        [(crc16X25 body).extractLsb' 0 8, (crc16X25 body).extractLsb' 8 8])⟩] }

/-- R79: the two checks of FRAME_ENCODE in their order; nothing else is refused. -/
def Obligations.FrameEncodeChecksInOrder : Prop :=
  ∀ (m : Verification) (f : FrameOperand) (s : State),
    (inEnum s.config f.command = false →
      exec (frameEncodeInstr m f) s =
        .next { s with responses := s.responses ++ [⟨.unknownCommand, .seq []⟩] }) ∧
    (inEnum s.config f.command = true → f.information.ack ∉ [0x00#8, 0x06#8, 0x15#8] →
      exec (frameEncodeInstr m f) s =
        .next { s with responses := s.responses ++ [⟨.badInformation, .seq []⟩] }) ∧
    (inEnum s.config f.command = true → f.information.ack ∈ [0x00#8, 0x06#8, 0x15#8] →
      ∃ w, exec (frameEncodeInstr m f) s =
        .next { s with responses := s.responses ++ [⟨.ok, .seq w⟩] })

/-- R81: the length of an encoded frame, which meets the minimum length of its mode. -/
def Obligations.EncodedFrameLength : Prop :=
  ∀ (cfg : Config) (m : Verification) (f : FrameOperand) (w : Bytes), frameEncode cfg m f = .ok w →
    w.length = 2 + (escape (frameBody f ++ checksumField m (frameBody f))).length ∧
    w.length = 14 + f.data.length + (checksumField m (frameBody f)).length +
      (frameBody f ++ checksumField m (frameBody f)).countP (fun b => b ∈ [0x7D#8, 0x7E#8, 0x7F#8]) ∧
    minLen m ≤ w.length

/-- R52: an encoded frame is self-delimiting, and the payload length is recovered as a remainder. -/
def Obligations.EncodedFrameIsSelfDelimiting : Prop :=
  ∀ (cfg : Config) (m : Verification) (f : FrameOperand) (w : Bytes), frameEncode cfg m f = .ok w →
    w = 0x7E#8 :: (frameInterior w ++ [0x7F#8]) ∧
    0x7E#8 ∉ frameInterior w ∧ 0x7F#8 ∉ frameInterior w ∧
    (∀ i : Nat, (frameInterior w)[i]? = some 0x7D#8 →
      (frameInterior w)[i + 1]? = some 0x5D#8 ∨ (frameInterior w)[i + 1]? = some 0x5E#8 ∨
        (frameInterior w)[i + 1]? = some 0x5F#8) ∧
    first w 0x7F#8 = some (w.length - 1) ∧
    f.data.length = (unescape (frameInterior w)).length - 12 - (checksumField m (frameBody f)).length

/-- R78: the catalog's lengths play no part in encoding, so a frame of any payload length encodes; one whose payload length
disagrees with the catalog is then refused by FRAME_DECODE with PayloadLengthMismatch. -/
def Obligations.CatalogLengthsPlayNoPartInEncoding : Prop :=
  (∀ (c₁ c₂ : Config) (m : Verification) (f : FrameOperand),
    inEnum c₁ f.command = inEnum c₂ f.command → frameEncode c₁ m f = frameEncode c₂ m f) ∧
  ∀ (cfg : Config) (m : Verification) (f : FrameOperand) (e : CatEntry),
    lookup cfg f.command = some e → f.information.ack ∈ [0x00#8, 0x06#8, 0x15#8] →
    ∃ w, frameEncode cfg m f = .ok w ∧
      (accepts (lenSpecFor e f.information) f.data.length = false →
        frameDecode cfg m w = .error .payloadLengthMismatch)

/-- The direction is request exactly when all four fields are zero, not the ack byte alone (R24, R77, R88). -/
def Obligations.FromPCNeedsAllSevenBytesZero : Prop :=
  ∀ i : Information, info7 i = [i.ack, i.nr.extractLsb' 0 8, i.nr.extractLsb' 8 8,
      i.devStatus.extractLsb' 0 8, i.devStatus.extractLsb' 8 8, i.status.extractLsb' 0 8, i.status.extractLsb' 8 8] ∧
    (fromPC i = true ↔ i.ack = 0#8 ∧ i.nr = 0#16 ∧ i.devStatus = 0#16 ∧ i.status = 0#16)

/-- A 16-bit value laid out low byte first is read back, as `x[i] + 256 * x[i+1]` (R10, R28). -/
def Obligations.LittleEndianReadsBack : Prop :=
  (∀ (pre post : Bytes) (v : Word), rd16 (pre ++ le16 v ++ post) pre.length = v) ∧
  ∀ (x : Bytes) (i : Nat) (a b : Byte), x[i]? = some a → x[i + 1]? = some b →
    (rd16 x i).toNat = a.toNat + 256 * b.toNat

/-! ### FRAME_DECODE -/

/-- FRAME_DECODE completes: a delimited raw frame of the minimum length whose unescaped interior is the body of a
syntactically valid frame and its checksum field is answered OK with that Frame, in each mode (R83, R89). The interior
need not be what ESCAPE makes: stray 0x7D and raw delimiters inside are read as R70 and R83 say. -/
def Obligations.FrameDecodeAnswersFrame : Prop :=
  ∀ (f : FrameOperand) (inside : Bytes) (s : State),
    syntacticallyValid s.config f = true →
    (14 ≤ inside.length + 2 → unescape inside = frameBody f →
      exec (.frameDecodeNone (0x7E#8 :: (inside ++ [0x7F#8]))) s = .next { s with responses := s.responses ++
        [⟨.ok, .frame (some ⟨f.address, f.command, 0x000C#16, f.information, f.data, .none⟩)⟩] }) ∧
    (15 ≤ inside.length + 2 → unescape inside = frameBody f ++ [mod256 (frameBody f)] →
      exec (.frameDecodeMod256 (0x7E#8 :: (inside ++ [0x7F#8]))) s = .next { s with responses := s.responses ++
        [⟨.ok, .frame (some ⟨f.address, f.command, 0x000C#16, f.information, f.data, .mod256⟩)⟩] }) ∧
    (16 ≤ inside.length + 2 → unescape inside = frameBody f ++ le16 (crc16X25 (frameBody f)) →
      exec (.frameDecodeCrc16 (0x7E#8 :: (inside ++ [0x7F#8]))) s = .next { s with responses := s.responses ++
        [⟨.ok, .frame (some ⟨f.address, f.command, 0x000C#16, f.information, f.data, .crc16⟩)⟩] })

/-- FRAME_DECODE accepts nothing else: it gives a Frame exactly when the input is such a raw frame (R83, R89, R90). -/
def Obligations.FrameDecodeAcceptsExactlyRawFrames : Prop :=
  ∀ (cfg : Config) (m : Verification) (w : Bytes) (g : Frame), frameDecode cfg m w = .ok g ↔
    ∃ (f : FrameOperand) (inside : Bytes),
      w = 0x7E#8 :: (inside ++ [0x7F#8]) ∧ minLen m ≤ w.length ∧
      unescape inside = frameBody f ++ checksumField m (frameBody f) ∧
      syntacticallyValid cfg f = true ∧
      g = ⟨f.address, f.command, 0x000C#16, f.information, f.data, m⟩

/-- R84: the eight checks of FRAME_DECODE, the first that fails being the one reported. Each clause assumes that the
checks before it pass. -/
def Obligations.FrameDecodeReportsFirstFailure : Prop :=
  ∀ (m : Verification) (w : Bytes) (s : State),
    let fails := fun e : Status => exec (frameDecodeInstr m w) s =
      .next { s with responses := s.responses ++ [⟨e, .frame none⟩] }
    let i := unescape ((w.drop 1).dropLast)
    let p := match m with
      | .none => i
      | .mod256 => i.take (i.length - 1)
      | .crc16 => i.take (i.length - 2)
    let checksumOk := match m with
      | .none => True
      | .mod256 => i.drop (i.length - 1) = [mod256 p]
      | .crc16 => i.drop (i.length - 2) = le16 (crc16X25 p)
    let longEnough := minLen m ≤ w.length
    let bounded := w[0]? = some 0x7E#8 ∧ w[w.length - 1]? = some 0x7F#8
    let cmd := rd16 p 1
    let information := readInformation p 5
    (w.length < minLen m → fails .frameTooShort) ∧
    (longEnough → ¬ bounded → fails .badDelimiter) ∧
    (longEnough → bounded → ¬ checksumOk → fails .checksumMismatch) ∧
    (longEnough → bounded → checksumOk → p.length < 12 → fails .frameTooShort) ∧
    (longEnough → bounded → checksumOk → 12 ≤ p.length → inEnum s.config cmd = false → fails .unknownCommand) ∧
    (longEnough → bounded → checksumOk → 12 ≤ p.length → inEnum s.config cmd = true →
      rd16 p 3 ≠ 0x000C#16 → fails .badDataOffset) ∧
    (longEnough → bounded → checksumOk → 12 ≤ p.length → inEnum s.config cmd = true → rd16 p 3 = 0x000C#16 →
      p.getD 5 0#8 ∉ [0x00#8, 0x06#8, 0x15#8] → fails .badInformation) ∧
    (longEnough → bounded → checksumOk → 12 ≤ p.length → rd16 p 3 = 0x000C#16 →
      p.getD 5 0#8 ∈ [0x00#8, 0x06#8, 0x15#8] →
      ∀ e, lookup s.config cmd = some e → accepts (lenSpecFor e information) (p.length - 12) = false →
        fails .payloadLengthMismatch)

/-- R91: for every syntactically valid frame and every mode, decoding what was encoded gives the Frame back. -/
def Obligations.DecodeOfEncodedFrame : Prop :=
  ∀ (m : Verification) (f : FrameOperand) (s : State), syntacticallyValid s.config f = true →
    ∃ w : Bytes,
      exec (frameEncodeInstr m f) s = .next { s with responses := s.responses ++ [⟨.ok, .seq w⟩] } ∧
      ∀ t : State, t.config = s.config →
        exec (frameDecodeInstr m w) t = .next { t with responses := t.responses ++
          [⟨.ok, .frame (some ⟨f.address, f.command, 0x000C#16, f.information, f.data, m⟩)⟩] }

/-- A frame with a checksum field decoded as NONE keeps the field as the last data bytes: a payload length mismatch under
an Exact length, accepted with the longer data under Variable (R92, first and third cases). -/
def Obligations.ChecksummedFrameDecodedAsNone : Prop :=
  ∀ (cfg : Config) (m : Verification) (f : FrameOperand) (w : Bytes) (e : CatEntry),
    m ≠ .none → syntacticallyValid cfg f = true → lookup cfg f.command = some e → frameEncode cfg m f = .ok w →
    (∀ n, lenSpecFor e f.information = .exact n → frameDecode cfg .none w = .error .payloadLengthMismatch) ∧
    (lenSpecFor e f.information = .variable →
      frameDecode cfg .none w = .ok ⟨f.address, f.command, 0x000C#16, f.information,
        f.data ++ checksumField m (frameBody f), .none⟩)

/-! ### The tokenizer -/

/-- `first` is the least index that holds the byte, or NONE where there is none (R10, R94). -/
def Obligations.FirstIsLeastIndex : Prop :=
  ∀ (x : Bytes) (b : Byte),
    (∀ i, first x b = some i ↔ x[i]? = some b ∧ ∀ j, j < i → x[j]? ≠ some b) ∧
    (first x b = none ↔ b ∉ x)

/-- R95: TOK_APPEND appends and answers OK, unless that would exceed the capacity: then it raises TokenizerOverflow with B
unchanged. With the default capacity it never fails. -/
def Obligations.TokAppendAppendsOrOverflows : Prop :=
  ∀ (d : Bytes) (s : State),
    let appended : Host.Outcome State Fault Refusal := .next
      { s with buffer := s.buffer ++ d, responses := s.responses ++ [⟨.ok, .none⟩] }
    (s.config.tokCap = Config.tokCapDefault → exec (.tokAppend d) s = appended) ∧
    ∀ n, s.config.tokCap = .cap n →
      (s.buffer.length + d.length ≤ n → exec (.tokAppend d) s = appended) ∧
      (n < s.buffer.length + d.length → exec (.tokAppend d) s =
        .next { s with responses := s.responses ++ [⟨.tokenizerOverflow, .none⟩] })

/-- TOK_NEXT answers OK with the token and the new B of `tokNext`, or with `(0, [])` (R96). -/
def Obligations.TokNextAnswersToken : Prop :=
  ∀ s : State,
    (∀ t b, tokNext s.buffer = (some t, b) →
      exec .tokNext s = .next { s with buffer := b, responses := s.responses ++ [⟨.ok, .token true t⟩] }) ∧
    (∀ b, tokNext s.buffer = (none, b) →
      exec .tokNext s = .next { s with buffer := b, responses := s.responses ++ [⟨.ok, .token false []⟩] })

/-- R96: the five cases of TOK_NEXT, N, T, S, O and E; O and E drop through the orphan end and loop. -/
def Obligations.TokNextFiveCases : Prop :=
  ∀ s : State,
    let answers := fun (b : Bytes) (r : Result) => exec .tokNext s =
      .next { s with buffer := b, responses := s.responses ++ [⟨.ok, r⟩] }
    (first s.buffer 0x7E#8 = none → first s.buffer 0x7F#8 = none → answers s.buffer (.token false [])) ∧
    (∀ i f, first s.buffer 0x7E#8 = some i → first s.buffer 0x7F#8 = some f → i < f →
      answers (s.buffer.drop (f + 1)) (.token true ((s.buffer.drop i).take (f + 1 - i)))) ∧
    (∀ i f, first s.buffer 0x7E#8 = some i → first s.buffer 0x7F#8 = some f → f < i →
      exec .tokNext s = exec .tokNext { s with buffer := s.buffer.drop (f + 1) }) ∧
    (∀ i, first s.buffer 0x7E#8 = some i → first s.buffer 0x7F#8 = none →
      answers (s.buffer.drop i) (.token false [])) ∧
    (∀ f, first s.buffer 0x7E#8 = none → first s.buffer 0x7F#8 = some f →
      exec .tokNext s = exec .tokNext { s with buffer := s.buffer.drop (f + 1) })

/-- R98: as many classifications as there are 0x7F bytes, and one more, are enough. -/
def Obligations.TokNextTerminatesWithinMarkers : Prop :=
  ∀ (b : Bytes) (n : Nat), b.count 0x7F#8 + 1 ≤ n → tokNextLoop n b = tokNext b

/-- TOK_NEXT without its loop: the token runs from the first 0x7E of B through the first 0x7F after it, everything before
it is dropped, and everything after it stays. -/
def Obligations.TokNextTakesFirstDelimitedRun : Prop :=
  ∀ b t r : Bytes, tokNext b = (some t, r) ↔
    ∃ dropped, b = dropped ++ t ++ r ∧ 0x7E#8 ∉ dropped ∧ IsToken t

/-- R99: the shape of a token, which may hold further 0x7E bytes. -/
def Obligations.TokenShape : Prop :=
  (∀ b t r : Bytes, tokNext b = (some t, r) →
    2 ≤ t.length ∧ t[0]? = some 0x7E#8 ∧ t[t.length - 1]? = some 0x7F#8 ∧ 0x7F#8 ∉ t.dropLast) ∧
  ∃ b t r : Bytes, tokNext b = (some t, r) ∧ 0x7E#8 ∈ t.drop 1

/-- R100: what B holds after a TOK_NEXT. -/
def Obligations.BufferAfterTokNext : Prop :=
  (∀ b r : Bytes, tokNext b = (none, r) →
    0x7F#8 ∉ r ∧ (0x7E#8 ∉ r ∨ r.head? = some 0x7E#8)) ∧
  ∀ b t r : Bytes, tokNext b = (some t, r) → ∃ dropped, b = dropped ++ t ++ r

/-- A frame that lost its 0x7F is merged with the next one into one token (R126). -/
def Obligations.TruncatedFrameMergesWithNext : Prop :=
  ∀ x y r : Bytes, 0x7F#8 ∉ x → 0x7F#8 ∉ y →
    tokNext (0x7E#8 :: (x ++ 0x7E#8 :: (y ++ 0x7F#8 :: r))) =
      (some (0x7E#8 :: (x ++ 0x7E#8 :: (y ++ [0x7F#8]))), r)

/-- R102: a host that drains after every append collects the same tokens and ends with the same B however the same bytes are
cut into chunks. The start B is any from which each cut drains at least once, or one with nothing left to drain, as after
reset. The bytes fit in the capacity, so that every chunk is appended: past `Cap n` the cut decides which chunks
TokenizerOverflow turns away (R95). -/
def Obligations.TokensDoNotDependOnChunking : Prop :=
  ∀ (s : State) (d₁ d₂ : List Bytes),
    (d₁ ≠ [] ∧ d₂ ≠ []) ∨ tokNext s.buffer = (none, s.buffer) →
    withinCap s.config.tokCap (s.buffer.length + d₁.flatten.length) = true → d₁.flatten = d₂.flatten →
    ∃ (ts : List Bytes) (s₁ s₂ : State),
      issueFeedAll d₁ s = some (ts, s₁) ∧ issueFeedAll d₂ s = some (ts, s₂) ∧ s₁.buffer = s₂.buffer

/-- A stream of encoded frames, fed in chunks of any size, is cut back into exactly those frames, and B is empty at the
end (R52, R96, R102, R103 (a)). -/
def Obligations.StreamOfEncodedFramesIsRecovered : Prop :=
  ∀ (s : State) (frames : List (Verification × FrameOperand)) (raw chunks : List Bytes),
    s.config.tokCap = .unbounded → s.buffer = [] →
    frames.map (fun f => frameEncode s.config f.1 f.2) = raw.map .ok → chunks.flatten = raw.flatten →
    ∃ t : State, issueFeedAll chunks s = some (raw, t) ∧ t.buffer = [] ∧ t.config = s.config

/-! ### The whole machine -/

/-- Every operation completes with exactly one response, whose status is one that R105 lists for it, and whose result is
the empty one of its shape where the status is not OK (R40, R42, R105). -/
def Obligations.OperationAnswersWithAllowedStatus : Prop :=
  ∀ (i : Instr) (s : State), ∃ (b : Bytes) (x : Response),
    exec i s = .next { s with buffer := b, responses := s.responses ++ [x] } ∧
    x.status ∈ statusesOf i ∧ (x.status ≠ .ok → x.result = emptyResult i)

/-- Every status R105 lists for an operation once its word is legal (every one but IllegalOperation, for which see
`EveryOperationHasIllegalWords`) is returned by it on some operand in some state. The operation is the op field of its
word, as in R105; its mode is an operand (R8), and in mode NONE no checksum is compared (R87). -/
def Obligations.EachAllowedStatusIsReached : Prop :=
  ∀ (i : Instr) (e : Status), e ∈ statusesOf i →
    ∃ (j : Instr) (s : State) (b : Bytes) (x : Response),
      (encode j).opword.extractLsb' 0 8 = (encode i).opword.extractLsb' 0 8 ∧
      exec j s = .next { s with buffer := b, responses := s.responses ++ [x] } ∧ x.status = e

/-- IllegalOperation, which R105 lists for every operation: each operation has a word with its op field that is answered
with it, in every state and whatever the operand (R46). The response's empty result is left open (log entry 5). -/
def Obligations.EveryOperationHasIllegalWords : Prop :=
  ∀ i : Instr, ∃ w : Word, w.extractLsb' 0 8 = (encode i).opword.extractLsb' 0 8 ∧
    ∀ (s : State) (o : Operand) (rest : List HostInput), ∃ e : Result,
      step { s with inputs := .request ⟨w, o⟩ :: rest } =
        .next { s with inputs := rest, responses := s.responses ++ [⟨.illegalOperation, e⟩] }

/-- R107, R108: an operation that ends with an error changes nothing but the response it gives. -/
def Obligations.ErrorChangesNothingElse : Prop :=
  ∀ (i : Instr) (s t : State) (x : Response), exec i s = .next t → t.responses = s.responses ++ [x] →
    x.status ≠ .ok → t = { s with responses := s.responses ++ [⟨x.status, emptyResult i⟩] }

/-- R17: only TOK_APPEND and TOK_NEXT read or write B. -/
def Obligations.OnlyTokenizerTouchesBuffer : Prop :=
  ∀ i : Instr, (∀ d, i ≠ .tokAppend d) → i ≠ .tokNext →
    ∀ s : State, ∃ x : Response, ∀ b : Bytes,
      exec i { s with buffer := b } = .next { s with buffer := b, responses := s.responses ++ [x] }

/-- R19: no operation reads a status or result given before. -/
def Obligations.EarlierResponsesAreNotRead : Prop :=
  ∀ (i : Instr) (s : State), ∃ (b : Bytes) (x : Response), ∀ rs : List Response,
    exec i { s with responses := rs } = .next { s with buffer := b, responses := rs ++ [x] }

/-- The parameters are never written (R20, R121), and the block never stops: every step gives a next state (R107, R113). -/
def Obligations.StepNeverStopsNorReconfigures : Prop :=
  ∀ s : State, ∃ t : State, step s = .next t ∧ t.config = s.config ∧ t.inputs = s.inputs.drop 1

/-- Running the machine serves what the host presented, in order (R36, R40): after `k` steps the first `k` inputs have been
taken and no other, and the responses given are one for each request among them, in the order of the requests, each one
that its request may be given. The list of inputs is the model's own (log entry 1), and that a reset stands in it, has no
response and leaves the requests behind it is the model's choice (log entry 14), as is that a step with nothing presented
gives no response (log entry 6). -/
def Obligations.EveryRequestIsAnsweredOnce : Prop :=
  ∀ (s : State) (k : Nat), ∃ t : State, Host.Core.run Sys2Proof.core k s = .next t ∧ t.inputs = s.inputs.drop k ∧
    ∃ rs : List Response, t.responses = s.responses ++ rs ∧
      rs.length = (s.inputs.take k).countP (fun x => x ≠ .reset) ∧
      List.Forall₂ AnswersRequest (requestsOf (s.inputs.take k)) rs

/-- The invariant: B is within TOK_CAP (R16), and every response given is one the block may give: empty on error (R42), never
0x08 or 0x09 (R104), only validated Frames (R90), only tokens of R99's shape. Every step keeps it. -/
def Obligations.StepKeepsInv : Prop :=
  ∀ s t : State, Inv s → step s = .next t → Inv t

/-- The invariant holds after reset, and after reset of a block with any other configuration (R9, R120). -/
def Obligations.ResetHasInv : Prop :=
  Inv State.reset ∧ ∀ cfg : Config, Inv { State.reset with config := cfg }

/-! ### The assembler -/

/-- Each mnemonic of R44 with an operand of its operation's shape assembles to the request of the instruction it names
(R54). A Seq operand, the data of a frame operand too, is a list of bytes or a name that an earlier line bound to a Seq
(what a name may stand for: log entry 13). -/
def Obligations.AssembledLineIsEncodedInstruction : Prop :=
  ∀ (env : AsmEnv) (b : AsmBinding) (q : AsmSeq) (d : Bytes) (f : FrameOperand),
    (q = .bytes d ∨
      ∃ n, q = .name n ∧ (env.lookup n = some (.seq d) ∨ env.lookup n = some (.result (.seq d)))) →
    assemble env ⟨"crc16_x25".toList, .seq q, b⟩ = some (encode (.crc16X25 d)) ∧
    assemble env ⟨"mod256".toList, .seq q, b⟩ = some (encode (.mod256 d)) ∧
    assemble env ⟨"escape".toList, .seq q, b⟩ = some (encode (.escape d)) ∧
    assemble env ⟨"unescape".toList, .seq q, b⟩ = some (encode (.unescape d)) ∧
    assemble env ⟨"frame.decode.none".toList, .seq q, b⟩ = some (encode (.frameDecodeNone d)) ∧
    assemble env ⟨"frame.decode.mod256".toList, .seq q, b⟩ = some (encode (.frameDecodeMod256 d)) ∧
    assemble env ⟨"frame.decode.crc16".toList, .seq q, b⟩ = some (encode (.frameDecodeCrc16 d)) ∧
    assemble env ⟨"tok.append".toList, .seq q, b⟩ = some (encode (.tokAppend d)) ∧
    assemble env ⟨"tok.next".toList, .none, b⟩ = some (encode .tokNext) ∧
    assemble env ⟨"frame.encode.none".toList, .frame f.address f.command f.information q, b⟩ =
      some (encode (.frameEncodeNone ⟨f.address, f.command, f.information, d⟩)) ∧
    assemble env ⟨"frame.encode.mod256".toList, .frame f.address f.command f.information q, b⟩ =
      some (encode (.frameEncodeMod256 ⟨f.address, f.command, f.information, d⟩)) ∧
    assemble env ⟨"frame.encode.crc16".toList, .frame f.address f.command f.information q, b⟩ =
      some (encode (.frameEncodeCrc16 ⟨f.address, f.command, f.information, d⟩))

/-- `tok.drain` on the machine (R55): it stops at the first `has_token = 0`, having collected the tokens in order, and
leaves a B from which TOK_NEXT takes no token and which it would leave as it is. -/
def Obligations.DrainTakesEveryToken : Prop :=
  ∀ s : State, ∃ (t : State), issueDrain (s.buffer.length + 1) s = some ((drain s.buffer).1, t) ∧
    t.buffer = (drain s.buffer).2 ∧ t.config = s.config ∧ t.inputs = s.inputs ∧
    tokNext t.buffer = (none, t.buffer)
end

