-- ==== Sys2Proof/Laws/State.lean ====
section
/-!
SUPPORT. Field and update lemmas of the state: one for each field and each update, so that no proof unfolds an update.
-/

namespace Sys2Proof.Machine

variable (s : State) (r : Response) (b : Bytes) (e : Status) (x : Result) (q : Request)

@[simp] theorem respond_buffer : (s.respond r).buffer = s.buffer := rfl
@[simp] theorem respond_config : (s.respond r).config = s.config := rfl
@[simp] theorem respond_inputs : (s.respond r).inputs = s.inputs := rfl
@[simp] theorem respond_responses : (s.respond r).responses = s.responses ++ [r] := rfl

@[simp] theorem raise_buffer : (s.raise e x).buffer = s.buffer := rfl
@[simp] theorem raise_config : (s.raise e x).config = s.config := rfl
@[simp] theorem raise_inputs : (s.raise e x).inputs = s.inputs := rfl
@[simp] theorem raise_responses : (s.raise e x).responses = s.responses ++ [⟨e, x⟩] := rfl

@[simp] theorem ret_buffer : (s.ret x).buffer = s.buffer := rfl
@[simp] theorem ret_config : (s.ret x).config = s.config := rfl
@[simp] theorem ret_inputs : (s.ret x).inputs = s.inputs := rfl
@[simp] theorem ret_responses : (s.ret x).responses = s.responses ++ [⟨.ok, x⟩] := rfl

@[simp] theorem setBuffer_buffer : (s.setBuffer b).buffer = b := rfl
@[simp] theorem setBuffer_config : (s.setBuffer b).config = s.config := rfl
@[simp] theorem setBuffer_inputs : (s.setBuffer b).inputs = s.inputs := rfl
@[simp] theorem setBuffer_responses : (s.setBuffer b).responses = s.responses := rfl

@[simp] theorem present_buffer : (s.present q).buffer = s.buffer := rfl
@[simp] theorem present_config : (s.present q).config = s.config := rfl
@[simp] theorem present_inputs : (s.present q).inputs = .request q :: s.inputs := rfl
@[simp] theorem present_responses : (s.present q).responses = s.responses := rfl

@[simp] theorem resetBlock_buffer : s.resetBlock.buffer = [] := rfl
@[simp] theorem resetBlock_config : s.resetBlock.config = s.config := rfl
@[simp] theorem resetBlock_inputs : s.resetBlock.inputs = s.inputs := rfl
@[simp] theorem resetBlock_responses : s.resetBlock.responses = s.responses := rfl

end Sys2Proof.Machine
end

