-- ==== Sys2Proof/Laws/Ops.lean ====
section
/-!
SUPPORT. One lemma for each shared operation that says everything it can do, for later proofs to cite instead of unfolding.
-/

namespace Sys2Proof.Machine

theorem answer_cases (empty : Result) (x : Except Status Result) (s : State) :
    (∃ r, x = .ok r ∧
      answer empty x s = .next { s with responses := s.responses ++ [⟨.ok, r⟩] }) ∨
    (∃ e, x = .error e ∧
      answer empty x s = .next { s with responses := s.responses ++ [⟨e, empty⟩] }) := by
  cases x with
  | ok r => exact .inl ⟨r, rfl, rfl⟩
  | error e => exact .inr ⟨e, rfl, rfl⟩

theorem answerBuffer_cases (empty : Result) (x : Except Status (Result × Bytes)) (s : State) :
    (∃ r b, x = .ok (r, b) ∧
      answerBuffer empty x s = .next { s with buffer := b, responses := s.responses ++ [⟨.ok, r⟩] }) ∨
    (∃ e, x = .error e ∧
      answerBuffer empty x s = .next { s with responses := s.responses ++ [⟨e, empty⟩] }) := by
  cases x with
  | ok p => exact .inl ⟨p.1, p.2, rfl, rfl⟩
  | error e => exact .inr ⟨e, rfl, rfl⟩

/-- What serving a request can do (30_encoding.md R46, R47). -/
theorem serve_cases (r : Request) (s : State) :
    (∃ i, decode r = .ok i ∧ serve r s = exec i s) ∨
    (∃ w, decode r = .error (.illegalOperation w) ∧
      serve r s = .next { s with responses := s.responses ++ [⟨.illegalOperation, .none⟩] }) := by
  unfold serve
  cases decode r with
  | ok i => exact .inl ⟨i, rfl, rfl⟩
  | error e => cases e; exact .inr ⟨_, rfl, rfl⟩

theorem acceptNext_idle {s : State} (h : s.inputs = []) : acceptNext s = .next s := by
  simp [acceptNext, h]

theorem acceptNext_reset {s : State} {rest : List HostInput} (h : s.inputs = .reset :: rest) :
    acceptNext s = .next { s with inputs := rest, buffer := [] } := by
  simp [acceptNext, h, State.resetBlock, State.setBuffer]

theorem acceptNext_request {s : State} {r : Request} {rest : List HostInput} (h : s.inputs = .request r :: rest) :
    acceptNext s = serve r { s with inputs := rest } := by
  simp [acceptNext, h]

end Sys2Proof.Machine
end

