-- ==== Sys2Proof/Laws/PerInstr.lean ====
section
/-!
SUPPORT. What holds of every instruction, one lemma for each constructor: its encoding is a legal request (30_encoding.md
R46) whose word is one of the twelve of R44.
-/

namespace Sys2Proof.Laws.EncodedRequestIsLegal

/-- The request of an instruction is legal by the four conditions of R46. -/
def Statement (i : Instr) : Prop := WellFormed.requestLegal (encode i) = true

theorem legal_01_none : WellFormed.opwordLegal (opwordOf 0x01#8 .none) = true := by decide
theorem legal_02_none : WellFormed.opwordLegal (opwordOf 0x02#8 .none) = true := by decide
theorem legal_03_none : WellFormed.opwordLegal (opwordOf 0x03#8 .none) = true := by decide
theorem legal_04_none : WellFormed.opwordLegal (opwordOf 0x04#8 .none) = true := by decide
theorem legal_05_none : WellFormed.opwordLegal (opwordOf 0x05#8 .none) = true := by decide
theorem legal_05_mod256 : WellFormed.opwordLegal (opwordOf 0x05#8 .mod256) = true := by decide
theorem legal_05_crc16 : WellFormed.opwordLegal (opwordOf 0x05#8 .crc16) = true := by decide
theorem legal_06_none : WellFormed.opwordLegal (opwordOf 0x06#8 .none) = true := by decide
theorem legal_06_mod256 : WellFormed.opwordLegal (opwordOf 0x06#8 .mod256) = true := by decide
theorem legal_06_crc16 : WellFormed.opwordLegal (opwordOf 0x06#8 .crc16) = true := by decide
theorem legal_07_none : WellFormed.opwordLegal (opwordOf 0x07#8 .none) = true := by decide
theorem legal_08_none : WellFormed.opwordLegal (opwordOf 0x08#8 .none) = true := by decide

theorem crc16X25 (d : Bytes) : Statement (.crc16X25 d) := legal_01_none
theorem mod256 (d : Bytes) : Statement (.mod256 d) := legal_02_none
theorem escape (d : Bytes) : Statement (.escape d) := legal_03_none
theorem unescape (d : Bytes) : Statement (.unescape d) := legal_04_none
theorem frameEncodeNone (f : FrameOperand) : Statement (.frameEncodeNone f) := legal_05_none
theorem frameEncodeMod256 (f : FrameOperand) : Statement (.frameEncodeMod256 f) := legal_05_mod256
theorem frameEncodeCrc16 (f : FrameOperand) : Statement (.frameEncodeCrc16 f) := legal_05_crc16
theorem frameDecodeNone (w : Bytes) : Statement (.frameDecodeNone w) := legal_06_none
theorem frameDecodeMod256 (w : Bytes) : Statement (.frameDecodeMod256 w) := legal_06_mod256
theorem frameDecodeCrc16 (w : Bytes) : Statement (.frameDecodeCrc16 w) := legal_06_crc16
theorem tokAppend (d : Bytes) : Statement (.tokAppend d) := legal_07_none
theorem tokNext : Statement .tokNext := legal_08_none

end Sys2Proof.Laws.EncodedRequestIsLegal
end

