-- ==== Sys2Proof/Laws/Safety.lean ====
section
/-!
SUPPORT. The small lemmas of what the statements say of requests and responses.
-/

namespace Sys2Proof.Safety

open Sys2Proof.Machine

@[simp] theorem requestsOf_nil : requestsOf [] = [] := rfl

@[simp] theorem requestsOf_request (r : Request) (rest : List HostInput) :
    requestsOf (.request r :: rest) = r :: requestsOf rest := rfl

@[simp] theorem requestsOf_reset (rest : List HostInput) : requestsOf (.reset :: rest) = requestsOf rest := rfl

theorem answersRequest_of_ok {r : Request} {x : Response} {i : Instr} (h : decode r = .ok i) :
    AnswersRequest r x ↔ x.status ∈ statusesOf i ∧ (x.status ≠ .ok → x.result = emptyResult i) := by
  simp only [AnswersRequest, h]

theorem answersRequest_of_error {r : Request} {x : Response} {e : DecodeError} (h : decode r = .error e) :
    AnswersRequest r x ↔ x.status = .illegalOperation := by
  simp only [AnswersRequest, h]

end Sys2Proof.Safety
end

