-- ==== Sys2Proof/Laws/Seq.lean ====
section
/-!
SUPPORT. Small lemmas of the sequence primitives, the byte stuffer, the checksums and the tokenizer loop.
-/

namespace Sys2Proof.Machine

/-! ### Primitives -/

@[simp] theorem le16_length (v : Word) : (le16 v).length = 2 := rfl

@[simp] theorem info7_length (i : Information) : (info7 i).length = 7 := rfl

theorem first_nil (b : Byte) : first [] b = none := rfl

theorem first_cons_self (b : Byte) (xs : Bytes) : first (b :: xs) b = some 0 := by simp [first]

theorem first_cons_of_ne {x b : Byte} (h : x ≠ b) (xs : Bytes) :
    first (x :: xs) b = (first xs b).map (· + 1) := by simp [first, h]

theorem frameBody_length (f : FrameOperand) : (frameBody f).length = 12 + f.data.length := by
  simp [frameBody]; omega

theorem checksumField_length (m : Verification) (b : Bytes) :
    (checksumField m b).length = match m with | .none => 0 | .mod256 => 1 | .crc16 => 2 := by
  cases m <;> rfl

/-! ### Checksums -/

@[simp] theorem crcFold_nil (r : Word) : crcFold r [] = r := rfl

@[simp] theorem crcFold_cons (r : Word) (b : Byte) (d : Bytes) :
    crcFold r (b :: d) = crcFold (crcByte r b) d := rfl

theorem crcFold_append (r : Word) (x y : Bytes) : crcFold r (x ++ y) = crcFold (crcFold r x) y := by
  simp [crcFold]

/-! ### The byte stuffer -/

@[simp] theorem escape_nil : escape [] = [] := rfl

@[simp] theorem escape_cons (b : Byte) (bs : Bytes) : escape (b :: bs) = escapeByte b ++ escape bs := rfl

theorem escape_append (x y : Bytes) : escape (x ++ y) = escape x ++ escape y := by
  induction x with
  | nil => rfl
  | cons b bs ih => simp [ih]

theorem escapeByte_reserved {b : Byte} (h : isReserved b = true) : escapeByte b = [esc, b ^^^ 0x20#8] := by
  simp [escapeByte, h]

theorem escapeByte_plain {b : Byte} (h : isReserved b = false) : escapeByte b = [b] := by
  simp [escapeByte, h]

theorem unescape_pair {c : Byte} (h : isEscapeCode c = true) (bs : Bytes) :
    unescape (esc :: c :: bs) = (c ^^^ 0x20#8) :: unescape bs := by
  simp [unescape, h]

theorem unescape_plain {b : Byte} (h : b ≠ esc) (bs : Bytes) : unescape (b :: bs) = b :: unescape bs := by
  cases bs <;> simp [unescape, h]

theorem unescape_stray {b c : Byte} (h : isEscapeCode c = false) (bs : Bytes) :
    unescape (b :: c :: bs) = b :: unescape (c :: bs) := by
  simp [unescape, h]

/-! ### The tokenizer loop -/

@[simp] theorem tokNextLoop_zero (b : Bytes) : tokNextLoop 0 b = (none, b) := rfl

theorem tokNextLoop_neither {b : Bytes} (n : Nat) (hs : first b sof = none) (hf : first b eof = none) :
    tokNextLoop (n + 1) b = (none, b) := by simp [tokNextLoop, hs, hf]

theorem tokNextLoop_frame {b : Bytes} {s f : Nat} (n : Nat) (hs : first b sof = some s) (hf : first b eof = some f)
    (h : s < f) : tokNextLoop (n + 1) b = (some (slice b s f), b.drop (f + 1)) := by simp [tokNextLoop, hs, hf, h]

theorem tokNextLoop_orphan {b : Bytes} {s f : Nat} (n : Nat) (hs : first b sof = some s) (hf : first b eof = some f)
    (h : ¬ s < f) : tokNextLoop (n + 1) b = tokNextLoop n (b.drop (f + 1)) := by simp [tokNextLoop, hs, hf, h]

theorem tokNextLoop_start {b : Bytes} {s : Nat} (n : Nat) (hs : first b sof = some s) (hf : first b eof = none) :
    tokNextLoop (n + 1) b = (none, b.drop s) := by simp [tokNextLoop, hs, hf]

theorem tokNextLoop_end {b : Bytes} {f : Nat} (n : Nat) (hs : first b sof = none) (hf : first b eof = some f) :
    tokNextLoop (n + 1) b = tokNextLoop n (b.drop (f + 1)) := by simp [tokNextLoop, hs, hf]

end Sys2Proof.Machine
end

