-- ==== Sys2Proof/Tests/Slice0.lean ====
section
/-!
SUPPORT. Tests. Expected values come from spec/95_test_vectors.md (L1, L2) and from the worked examples of the rules named
beside them; the catalog is the fixture TC of that file. The witnesses at the end meet the hypotheses of the statements.
-/

namespace Sys2Proof.Tests

open Sys2Proof.Machine Sys2Proof.Safety

/-! ### Helpers -/

/-- The fixture catalog TC of 95_test_vectors.md, with a capacity. -/
def tc (cap : TokCap) : Config where
  catalog := [(0x0018#16, ⟨.exact 0, .exact 0⟩), (0x0016#16, ⟨.exact 0, .variable⟩), (0x1234#16, ⟨.exact 2, .exact 3⟩)]
  tokCap := cap

/-- A state with a buffer and the fixture catalog. -/
def st (b : Bytes) (cap : TokCap := Config.tokCapDefault) : State := ⟨b, tc cap, [], []⟩

/-- The responses and the buffer of a next state. -/
def seen : Host.Outcome State Fault Refusal → Option (List Response × Bytes)
  | .next t => some (t.responses, t.buffer)
  | _ => none

/-- The all-zero information record. -/
def info0 : Information := ⟨0#8, 0#16, 0#16, 0#16⟩

/-- The start-print request of L1-2. -/
def startPrint : FrameOperand := ⟨0x00#8, 0x0018#16, info0, []⟩

/-- The raw frame E3 of L1-2. -/
def e3 : Bytes := [0x7E, 0x00, 0x18, 0x00, 0x0C, 0x00, 0x00, 0x00, 0x00, 0x00, 0x00, 0x00, 0x00, 0x1E, 0xED, 0x7F]

/-- The body of L1-1. -/
def l11 : Bytes := [0x00, 0x16, 0x00, 0x0C, 0x00, 0x00, 0x00, 0x00, 0x00, 0x00, 0x00, 0x00]

/-! ### Well-formedness of operation words: one ill-formed word for each check (the words of R46's vectors) -/

theorem test_wf_op_zero : WellFormed.opKnown 0x0000#16 = false := by decide
theorem test_wf_op_nine : WellFormed.opKnown 0x0009#16 = false := by decide
theorem test_wf_rsv : WellFormed.rsvZero 0x0406#16 = false := by decide
theorem test_wf_mode_not_zero : WellFormed.modeZeroUnlessFrame 0x0101#16 = false := by decide
theorem test_wf_mode_not_zero_tok_next : WellFormed.modeZeroUnlessFrame 0x0108#16 = false := by decide
theorem test_wf_mode_reserved : WellFormed.modeNotReserved 0x0305#16 = false := by decide
theorem test_wf_request : WellFormed.requestLegal ⟨0x0206#16, ⟨[], zeroFrameOperand⟩⟩ = true := by decide

/-! ### Decoding: every word written out from R41 as rsv, mode, op -/

theorem test_decode_crc16_x25 (o : Operand) : decode ⟨0b000000_00_00000001#16, o⟩ = .ok (.crc16X25 o.seq) := rfl
theorem test_decode_mod256 (o : Operand) : decode ⟨0b000000_00_00000010#16, o⟩ = .ok (.mod256 o.seq) := rfl
theorem test_decode_escape (o : Operand) : decode ⟨0b000000_00_00000011#16, o⟩ = .ok (.escape o.seq) := rfl
theorem test_decode_unescape (o : Operand) : decode ⟨0b000000_00_00000100#16, o⟩ = .ok (.unescape o.seq) := rfl
theorem test_decode_encode_none (o : Operand) :
    decode ⟨0b000000_00_00000101#16, o⟩ = .ok (.frameEncodeNone o.frame) := rfl
theorem test_decode_encode_mod256 (o : Operand) :
    decode ⟨0b000000_01_00000101#16, o⟩ = .ok (.frameEncodeMod256 o.frame) := rfl
theorem test_decode_encode_crc16 (o : Operand) :
    decode ⟨0b000000_10_00000101#16, o⟩ = .ok (.frameEncodeCrc16 o.frame) := rfl
theorem test_decode_decode_none (o : Operand) :
    decode ⟨0b000000_00_00000110#16, o⟩ = .ok (.frameDecodeNone o.seq) := rfl
theorem test_decode_decode_mod256 (o : Operand) :
    decode ⟨0b000000_01_00000110#16, o⟩ = .ok (.frameDecodeMod256 o.seq) := rfl
theorem test_decode_decode_crc16 (o : Operand) :
    decode ⟨0b000000_10_00000110#16, o⟩ = .ok (.frameDecodeCrc16 o.seq) := rfl
theorem test_decode_tok_append (o : Operand) : decode ⟨0b000000_00_00000111#16, o⟩ = .ok (.tokAppend o.seq) := rfl
theorem test_decode_tok_next (o : Operand) : decode ⟨0b000000_00_00001000#16, o⟩ = .ok .tokNext := rfl
theorem test_decode_mode_reserved (o : Operand) :
    decode ⟨0b000000_11_00000101#16, o⟩ = .error (.illegalOperation 0x0305#16) := rfl
theorem test_encode_words : opwordOfInstr (.frameDecodeCrc16 []) = 0x0206#16 ∧
    opwordOfInstr (.frameEncodeMod256 startPrint) = 0x0105#16 ∧ opwordOfInstr .tokNext = 0x0008#16 := by decide
theorem test_decodeTableWord : decodeTableWord 16 0x0205 = some (.frameEncodeCrc16 zeroFrameOperand) ∧
    decodeTableWord 16 0x0205FFFF = none := by decide

/-! ### Steps -/

/-- The first step after reset runs the word that is placed, here `crc16_x25 []`, which gives 0x0000 (R60). -/
theorem test_step_first_word : seen (step (State.reset.withFetchWord 16 0x0001)) = some ([⟨.ok, .word 0#16⟩], []) := by
  decide +kernel

/-- From reset, with the default TOK_CAP, a TOK_APPEND of bytes is appended (R9 (c), R95). -/
theorem test_step_append_from_reset :
    seen (step (State.reset.present (encode (.tokAppend [0x02, 0x7F])))) = some ([⟨.ok, .none⟩], [0x02, 0x7F]) := by
  decide +kernel

/-- 0x0108 is `tok.next` with mode 01: IllegalOperation, B unchanged (R46 vectors). -/
theorem test_step_illegal_word :
    (seen (step ((st [0x7E, 0x7F]).withFetchWord 16 0x0108))).map (fun p => (p.1.map (·.status.code), p.2))
      = some ([0x0A#8], [0x7E, 0x7F]) := by decide

/-- Reset between operations empties B (R119). -/
theorem test_step_reset : seen (step { st [0x7E, 0x01] with inputs := [.reset] }) = some ([], []) := by decide

/-! ### CRC16_X25 -/

/-- L1-1. -/
theorem test_crc16_x25_reference : seen (exec (.crc16X25 l11) (st [])) = some ([⟨.ok, .word 0xA4C3#16⟩], []) := by
  decide +kernel

/-- L2: ASCII "123456789" gives 0x906E. -/
theorem test_crc16_x25_check_value :
    seen (exec (.crc16X25 [0x31, 0x32, 0x33, 0x34, 0x35, 0x36, 0x37, 0x38, 0x39]) (st []))
      = some ([⟨.ok, .word 0x906E#16⟩], []) := by decide +kernel

/-- L2: the register after one zero byte, and the register after each byte of L1-1 at the fourth and last. -/
theorem test_crc_byte : crcByte 0xFFFF#16 0x00#8 = 0x0F87#16 ∧ crcFold 0xFFFF#16 (l11.take 4) = 0x9A01#16 ∧
    crcFold 0xFFFF#16 l11 = 0x5B3C#16 := by decide +kernel

/-! ### MOD256 -/

theorem test_mod256_wraps : seen (exec (.mod256 [0xFF, 0xFF, 0xFF]) (st [])) = some ([⟨.ok, .byte 0xFD#8⟩], []) := by
  decide
theorem test_mod256_header : seen (exec (.mod256 l11) (st [])) = some ([⟨.ok, .byte 0x22#8⟩], []) := by decide

/-! ### ESCAPE and UNESCAPE -/

theorem test_escape_reserved :
    seen (exec (.escape [0x7D, 0x7E, 0x7F]) (st [])) = some ([⟨.ok, .seq [0x7D, 0x5D, 0x7D, 0x5E, 0x7D, 0x5F]⟩], []) := by
  decide
theorem test_escape_not_rescanned :
    seen (exec (.escape [0x7D, 0x5E]) (st [])) = some ([⟨.ok, .seq [0x7D, 0x5D, 0x5E]⟩], []) := by decide
theorem test_unescape_not_paired_again :
    seen (exec (.unescape [0x7D, 0x7D, 0x5D, 0x5F]) (st [])) = some ([⟨.ok, .seq [0x7D, 0x7D, 0x5F]⟩], []) := by decide
theorem test_unescape_stray_and_trailing :
    seen (exec (.unescape [0x7D, 0x60, 0x7E, 0x7D]) (st [])) = some ([⟨.ok, .seq [0x7D, 0x60, 0x7E, 0x7D]⟩], []) := by
  decide

/-! ### FRAME_ENCODE -/

/-- E13. -/
theorem test_frame_encode_none :
    seen (exec (.frameEncodeNone ⟨0x00#8, 0x1234#16, info0, [0x7D, 0x7F]⟩) (st [])) = some ([⟨.ok, .seq
      [0x7E, 0x00, 0x34, 0x12, 0x0C, 0x00, 0x00, 0x00, 0x00, 0x00, 0x00, 0x00, 0x00, 0x7D, 0x5D, 0x7D, 0x5F, 0x7F]⟩],
      []) := by decide +kernel

/-- P4: the sum 0xCE, and the status field 7E7F as 7F 7E, both escaped. -/
theorem test_frame_encode_mod256 :
    seen (exec (.frameEncodeMod256 ⟨0x05#8, 0x1234#16, ⟨0x15#8, 0x0203#16, 0x0000#16, 0x7E7F#16⟩, [0x10, 0x20, 0x30]⟩)
      (st [])) = some ([⟨.ok, .seq [0x7E, 0x05, 0x34, 0x12, 0x0C, 0x00, 0x15, 0x03, 0x02, 0x00, 0x00, 0x7D, 0x5F, 0x7D,
      0x5E, 0x10, 0x20, 0x30, 0xCE, 0x7F]⟩], []) := by decide +kernel

/-- E4: the CRC's high byte is escaped. -/
theorem test_frame_encode_crc16 :
    seen (exec (.frameEncodeCrc16 ⟨0x11#8, 0x0018#16, info0, []⟩) (st [])) = some ([⟨.ok, .seq [0x7E, 0x11, 0x18, 0x00,
      0x0C, 0x00, 0x00, 0x00, 0x00, 0x00, 0x00, 0x00, 0x00, 0x93, 0x7D, 0x5D, 0x7F]⟩], []) := by decide +kernel

/-- E10: UnknownCommand takes priority over BadInformation. -/
theorem test_frame_encode_priority :
    seen (exec (.frameEncodeCrc16 ⟨0x00#8, 0x0099#16, ⟨0x01#8, 0#16, 0#16, 0#16⟩, []⟩) (st []))
      = some ([⟨.unknownCommand, .seq []⟩], []) := by decide

/-- R56: start print encodes in the block that comes out of reset, whatever its catalog. -/
theorem test_frame_encode_from_reset :
    seen (exec (.frameEncodeCrc16 startPrint) State.reset) = some ([⟨.ok, .seq e3⟩], []) := by decide +kernel

/-! ### FRAME_DECODE -/

/-- DV20: the CRC bytes of a CRC16 frame are data under NONE. -/
theorem test_frame_decode_none :
    seen (exec (.frameDecodeNone [0x7E, 0x00, 0x16, 0x00, 0x0C, 0x00, 0x06, 0x00, 0x00, 0x00, 0x00, 0x00, 0x00, 0x0E,
      0xFC, 0x7F]) (st [])) = some ([⟨.ok, .frame (some ⟨0x00#8, 0x0016#16, 0x000C#16, ⟨0x06#8, 0#16, 0#16, 0#16⟩,
      [0x0E, 0xFC], .none⟩)⟩], []) := by decide +kernel

/-- DV16: E2 with sum byte 25. -/
theorem test_frame_decode_mod256 :
    seen (exec (.frameDecodeMod256 [0x7E, 0x00, 0x18, 0x00, 0x0C, 0x00, 0x00, 0x00, 0x00, 0x00, 0x00, 0x00, 0x00, 0x25,
      0x7F]) (st [])) = some ([⟨.checksumMismatch, .frame none⟩], []) := by decide +kernel

/-- DV17: ack 00 with nr = 0001 is a response. -/
theorem test_frame_decode_crc16 :
    seen (exec (.frameDecodeCrc16 [0x7E, 0x00, 0x18, 0x00, 0x0C, 0x00, 0x00, 0x01, 0x00, 0x00, 0x00, 0x00, 0x00, 0x35,
      0xE9, 0x7F]) (st [])) = some ([⟨.ok, .frame (some ⟨0x00#8, 0x0018#16, 0x000C#16, ⟨0x00#8, 0x0001#16, 0#16, 0#16⟩,
      [], .crc16⟩)⟩], []) := by decide +kernel

/-- DV18: as a response its length is checked against `resp = Exact 3`. -/
theorem test_frame_decode_crc16_response_length :
    seen (exec (.frameDecodeCrc16 [0x7E, 0x00, 0x34, 0x12, 0x0C, 0x00, 0x00, 0x01, 0x00, 0x00, 0x00, 0x00, 0x00, 0x0A,
      0x0B, 0x2E, 0x67, 0x7F]) (st [])) = some ([⟨.payloadLengthMismatch, .frame none⟩], []) := by decide +kernel

/-! ### The tokenizer -/

theorem test_tok_append_at_cap :
    seen (exec (.tokAppend [0x02, 0x7F]) (st [0x7E, 0x01] (.cap 4))) = some ([⟨.ok, .none⟩], [0x7E, 0x01, 0x02, 0x7F]) := by
  decide
theorem test_tok_append_past_cap :
    seen (exec (.tokAppend [0x02, 0x7F]) (st [0x7E, 0x01] (.cap 3))) = some ([⟨.tokenizerOverflow, .none⟩], [0x7E, 0x01]) := by
  decide

/-- T4: case O, then case T. -/
theorem test_tok_next_orphan_then_token :
    seen (exec .tokNext (st [0x7F, 0x55, 0x7E, 0x01, 0x7F, 0x7E])) = some ([⟨.ok, .token true [0x7E, 0x01, 0x7F]⟩], [0x7E]) := by
  decide

/-- T6: case E, then case S. -/
theorem test_tok_next_end_then_start :
    seen (exec .tokNext (st [0x01, 0x7F, 0x02, 0x7E])) = some ([⟨.ok, .token false []⟩], [0x7E]) := by decide

/-! ### The assembler -/

/-- The text of a line with `!` for the opening and `?` for the closing brace (a string here holds no braces). -/
def lineText (s : String) : List Char :=
  s.toList.map fun c => if c = '!' then Char.ofNat 0x7B else if c = '?' then Char.ofNat 0x7D else c

/-- R56: the worked line assembles to opword 0x0205 and its operand. -/
theorem test_assemble_frame_line :
    ((asmLine (lineText "frame.encode.crc16 !addr=0x00, cmd=0x0018, info=!ack=0x00, nr=0x0000, dev=0x0000, st=0x0000?, data=[]? -> W ; R56")).bind
      (assemble [])) = some ⟨0x0205#16, ⟨[], startPrint⟩⟩ := by decide +kernel

/-- R54, R55: a name bound by one line is used by the next, and `tok.feed` binds the tokens (the frame of L1-2). -/
theorem test_assembler_feed :
    (((["frame.encode.crc16 !addr=0x00, cmd=0x0018, info=!ack=0x00, nr=0, dev=0, st=0?, data=[]? -> W",
        "tok.feed W -> L"].mapM fun l => asmLine (lineText l)).bind fun ls => asmRun ls [] (st [0x55, 0x7F])).bind
      fun p => p.1.lookup ['L']) = some (.tokens [e3]) := by decide +kernel

/-- A text with no operation is no line (log entry 13). -/
theorem test_assembler_comment_is_no_line :
    asmLine "; opcode".toList = none ∧ asmLine [] = none := by decide +kernel

/-- A byte list with a number that is no byte is no operand (R43, R54). -/
theorem test_assembler_refuses_wide_byte : asmLine "escape [0x100]".toList = none := by decide +kernel

/-! ### Witnesses: a concrete state and operands that meet the hypotheses of each statement, at the boundaries of its clauses -/

/-- A state with requests pending. -/
def pending (b : Bytes) (rs : List HostInput) : State := { st b with inputs := rs }

/-- The request of `tok.next`. -/
def tokNextRequest : Request := ⟨0x0008#16, ⟨[], zeroFrameOperand⟩⟩

theorem witness_StepRunsDecodedRequest :
    (pending [0x7E, 0x7F] [.request tokNextRequest, .reset]).inputs = .request tokNextRequest :: [.reset] ∧
    decode tokNextRequest = .ok .tokNext := ⟨rfl, rfl⟩

/-- The first and last op of the illegal range, each rsv and mode condition. -/
theorem witness_IllegalWordRaisesIllegalOperation :
    (pending [] [.request ⟨0x0009#16, ⟨[], zeroFrameOperand⟩⟩]).inputs =
      .request ⟨0x0009#16, ⟨[], zeroFrameOperand⟩⟩ :: [] ∧
    ([0x0000#16, 0x0009#16, 0x00FF#16, 0x0406#16, 0x8001#16, 0x0107#16, 0x0305#16, 0x0306#16].map
      WellFormed.opwordLegal).all (!·) = true := by decide

theorem witness_BlockWaitsWithoutRequest : (st [0x7E]).inputs = [] := rfl
theorem witness_ResetInputEmptiesBuffer : (pending [0x7E] [.reset]).inputs = .reset :: [] := rfl
theorem witness_DecodedRequestEncodesBack :
    decode ⟨0x0005#16, ⟨[0x01], startPrint⟩⟩ = .ok (.frameEncodeNone startPrint) ∧
    readsFrame (.frameEncodeNone startPrint) = true ∧ readsSeq (.frameDecodeNone []) = true := ⟨rfl, rfl, rfl⟩
theorem witness_DecodeAcceptsExactlyLegalWords :
    WellFormed.opwordLegal 0x0206#16 = true ∧ WellFormed.opwordLegal 0x0306#16 = false := by decide
theorem witness_CrcDetectsOneChangedByte : (0x00#8 : Byte) ≠ 0x01#8 := by decide
theorem witness_UnescapeOfEscape : ∃ x, escape x = [0x7D#8, 0x5D#8] := ⟨[0x7D#8], by decide⟩
theorem witness_EscapedHasNoDelimiter : (escape [0x7E#8])[0]? = some 0x7D#8 := by decide

theorem witness_FrameEncodeAnswersRawFrame :
    inEnum (st []).config 0x0018#16 = true ∧
    ∀ a ∈ [0x00#8, 0x06#8, 0x15#8], (Information.mk a 0#16 0#16 0#16).ack ∈ [0x00#8, 0x06#8, 0x15#8] := by decide

/-- E8, E9 and E3. -/
theorem witness_FrameEncodeChecksInOrder :
    inEnum (st []).config 0x0099#16 = false ∧
    (inEnum (st []).config 0x0018#16 = true ∧ 0x01#8 ∉ [0x00#8, 0x06#8, 0x15#8]) ∧
    (inEnum (st []).config startPrint.command = true ∧ startPrint.information.ack ∈ [0x00#8, 0x06#8, 0x15#8]) := by decide

/-- For `EncodedFrameLength` and `EncodedFrameIsSelfDelimiting`: E3. -/
theorem witness_EncodedFrame : frameEncode (tc .unbounded) .crc16 startPrint = .ok e3 := by decide +kernel

/-- E11, under TC and under a catalog with another length. -/
theorem witness_CatalogLengthsPlayNoPartInEncoding :
    inEnum (tc .unbounded) 0x0018#16 = inEnum ⟨[(0x0018#16, ⟨.variable, .variable⟩)], .unbounded⟩ 0x0018#16 ∧
    startPrint.information.ack ∈ [0x00#8, 0x06#8, 0x15#8] ∧ lookup (tc .unbounded) 0x0018#16 = some ⟨.exact 0, .exact 0⟩ ∧
    accepts (lenSpecFor ⟨.exact 0, .exact 0⟩ info0) 1 = false := by decide

theorem witness_LittleEndianReadsBack : ([0x34, 0x12] : Bytes)[0]? = some 0x34#8 ∧
    ([0x34, 0x12] : Bytes)[0 + 1]? = some 0x12#8 := by decide

/-- E1, E2 and E3, each of its mode's minimum length. -/
theorem witness_FrameDecodeAnswersFrame :
    syntacticallyValid (st []).config startPrint = true ∧
    (14 ≤ (frameBody startPrint).length + 2 ∧ unescape (frameBody startPrint) = frameBody startPrint) ∧
    (15 ≤ (frameBody startPrint ++ [0x24]).length + 2 ∧
      unescape (frameBody startPrint ++ [0x24]) = frameBody startPrint ++ [Machine.mod256 (frameBody startPrint)]) ∧
    (16 ≤ (frameBody startPrint ++ [0x1E, 0xED]).length + 2 ∧
      unescape (frameBody startPrint ++ [0x1E, 0xED]) =
        frameBody startPrint ++ le16 (Machine.crc16X25 (frameBody startPrint))) := by decide +kernel

/-- DV1. -/
theorem witness_FrameDecodeAcceptsExactlyRawFrames :
    frameDecode (tc .unbounded) .crc16 e3 = .ok ⟨0x00#8, 0x0018#16, 0x000C#16, info0, [], .crc16⟩ := by decide +kernel

/-- The body that FRAME_DECODE in mode CRC16 reads from a raw frame, and whether its checksum matches. -/
def bodyOf (w : Bytes) : Bytes := let i := unescape ((w.drop 1).dropLast); i.take (i.length - 2)
def crcMatches (w : Bytes) : Bool :=
  let i := unescape ((w.drop 1).dropLast); i.drop (i.length - 2) == le16 (Machine.crc16X25 (bodyOf w))
/-- The first three checks of FRAME_DECODE in mode CRC16 pass, and the body has 12 bytes or more. -/
def readable (w : Bytes) : Prop :=
  minLen .crc16 ≤ w.length ∧ (w[0]? = some 0x7E#8 ∧ w[w.length - 1]? = some 0x7F#8) ∧ crcMatches w = true ∧
    12 ≤ (bodyOf w).length

/-- DV2: one byte below the minimum length of each mode (clause 1). -/
theorem witness_FrameDecodeReportsFirstFailure_short :
    e3.dropLast.length + 1 = minLen .crc16 ∧ e3.dropLast.length < minLen .crc16 ∧
    (e3.take 14).length < minLen .mod256 ∧ (e3.take 13).length < minLen .none := by decide

/-- DV3 and DV3b (clause 2). -/
theorem witness_FrameDecodeReportsFirstFailure_delimiter : minLen .crc16 ≤ (e3.set 0 0x7F).length ∧
    ¬ ((e3.set 0 0x7F)[0]? = some 0x7E#8 ∧ (e3.set 0 0x7F)[15]? = some 0x7F#8) ∧
    ¬ ((e3.set 15 0x7E)[0]? = some 0x7E#8 ∧ (e3.set 15 0x7E)[15]? = some 0x7F#8) := by decide

/-- DV4 (clause 3). -/
theorem witness_FrameDecodeReportsFirstFailure_checksum : minLen .crc16 ≤ (e3.set 13 0x1F).length ∧
    ((e3.set 13 0x1F)[0]? = some 0x7E#8 ∧ (e3.set 13 0x1F)[15]? = some 0x7F#8) ∧
    crcMatches (e3.set 13 0x1F) = false := by decide +kernel

/-- A raw frame of 14 bytes, mode NONE, that unescapes to 11 body bytes, next to DV14 (clause 4). -/
theorem witness_FrameDecodeReportsFirstFailure_body :
    let w : Bytes := [0x7E, 0x7D, 0x5D, 0, 0, 0, 0, 0, 0, 0, 0, 0, 0, 0x7F]
    minLen .none ≤ w.length ∧ (w[0]? = some 0x7E#8 ∧ w[13]? = some 0x7F#8) ∧
    (unescape ((w.drop 1).dropLast)).length = 11 := by decide

/-- DV5 (clause 5): a body of exactly 12 bytes. -/
theorem witness_FrameDecodeReportsFirstFailure_command :
    let w : Bytes := [0x7E, 0x00, 0x99, 0x00, 0x0C, 0x00, 0x00, 0x00, 0x00, 0x00, 0x00, 0x00, 0x00, 0x94, 0x2A, 0x7F]
    readable w ∧ inEnum (st []).config (rd16 (bodyOf w) 1) = false := by unfold readable; decide +kernel

/-- DV6 (clause 6). -/
theorem witness_FrameDecodeReportsFirstFailure_offset :
    let w : Bytes := [0x7E, 0x00, 0x18, 0x00, 0x0D, 0x00, 0x00, 0x00, 0x00, 0x00, 0x00, 0x00, 0x00, 0xE3, 0xA0, 0x7F]
    readable w ∧ inEnum (st []).config (rd16 (bodyOf w) 1) = true ∧ rd16 (bodyOf w) 3 ≠ 0x000C#16 := by
  unfold readable; decide +kernel

/-- DV7 (clause 7). -/
theorem witness_FrameDecodeReportsFirstFailure_information :
    let w : Bytes := [0x7E, 0x00, 0x18, 0x00, 0x0C, 0x00, 0x01, 0x00, 0x00, 0x00, 0x00, 0x00, 0x00, 0xCB, 0x72, 0x7F]
    readable w ∧ inEnum (st []).config (rd16 (bodyOf w) 1) = true ∧ rd16 (bodyOf w) 3 = 0x000C#16 ∧
    (bodyOf w).getD 5 0#8 ∉ [0x00#8, 0x06#8, 0x15#8] := by unfold readable; decide +kernel

/-- DV8 (clause 8). -/
theorem witness_FrameDecodeReportsFirstFailure_payload :
    let w : Bytes := [0x7E, 0x00, 0x18, 0x00, 0x0C, 0x00, 0x00, 0x00, 0x00, 0x00, 0x00, 0x00, 0x00, 0xAA, 0x3A, 0x03, 0x7F]
    readable w ∧ rd16 (bodyOf w) 3 = 0x000C#16 ∧ (bodyOf w).getD 5 0#8 ∈ [0x00#8, 0x06#8, 0x15#8] ∧
    lookup (st []).config (rd16 (bodyOf w) 1) = some ⟨.exact 0, .exact 0⟩ ∧
    accepts (lenSpecFor ⟨.exact 0, .exact 0⟩ (readInformation (bodyOf w) 5)) ((bodyOf w).length - 12) = false := by
  unfold readable; decide +kernel

theorem witness_DecodeOfEncodedFrame : syntacticallyValid (st []).config startPrint = true ∧
    (st [0x7E]).config = (st []).config := by decide

/-- The response of DV20: command 0x0016, ack 0x06, no data. -/
def completeResponse : FrameOperand := ⟨0x00#8, 0x0016#16, ⟨0x06#8, 0#16, 0#16, 0#16⟩, []⟩

/-- E3 (DV19, Exact 0) and the frame of DV20 (Variable). -/
theorem witness_ChecksummedFrameDecodedAsNone :
    (Verification.crc16 ≠ .none ∧ syntacticallyValid (tc .unbounded) startPrint = true ∧
      lookup (tc .unbounded) startPrint.command = some ⟨.exact 0, .exact 0⟩ ∧
      frameEncode (tc .unbounded) .crc16 startPrint = .ok e3 ∧
      lenSpecFor ⟨.exact 0, .exact 0⟩ startPrint.information = .exact 0) ∧
    (syntacticallyValid (tc .unbounded) completeResponse = true ∧
      lookup (tc .unbounded) completeResponse.command = some ⟨.exact 0, .variable⟩ ∧
      frameEncode (tc .unbounded) .crc16 completeResponse = .ok
        [0x7E, 0x00, 0x16, 0x00, 0x0C, 0x00, 0x06, 0x00, 0x00, 0x00, 0x00, 0x00, 0x00, 0x0E, 0xFC, 0x7F] ∧
      lenSpecFor ⟨.exact 0, .variable⟩ completeResponse.information = .variable) := by decide +kernel

/-- No capacity, a capacity that is met exactly, and one that is passed by one byte. -/
theorem witness_TokAppendAppendsOrOverflows :
    (st []).config.tokCap = Config.tokCapDefault ∧ (st [0x7E, 0x01] (.cap 4)).config.tokCap = .cap 4 ∧
    (st [0x7E, 0x01] (.cap 4)).buffer.length + [0x02#8, 0x7F#8].length ≤ 4 ∧
    (st [0x7E, 0x01] (.cap 3)).config.tokCap = .cap 3 ∧
    3 < (st [0x7E, 0x01] (.cap 3)).buffer.length + [0x02#8, 0x7F#8].length := by decide

theorem witness_TokNextAnswersToken : tokNext (st [0x7E, 0x7F]).buffer = (some [0x7E, 0x7F], []) ∧
    tokNext (st []).buffer = (none, []) := by decide

/-- T1, T3, T4, T2 and T5, with the markers next to each other in cases T and O. -/
theorem witness_TokNextFiveCases :
    (first [0x01, 0x02] 0x7E#8 = none ∧ first [0x01, 0x02] 0x7F#8 = none) ∧
    (first [0x7E, 0x7F] 0x7E#8 = some 0 ∧ first [0x7E, 0x7F] 0x7F#8 = some 1) ∧
    (first [0x7F, 0x7E] 0x7E#8 = some 1 ∧ first [0x7F, 0x7E] 0x7F#8 = some 0) ∧
    (first [0x01, 0x02, 0x7E, 0x03] 0x7E#8 = some 2 ∧ first [0x01, 0x02, 0x7E, 0x03] 0x7F#8 = none) ∧
    (first [0x01, 0x7F, 0x02] 0x7E#8 = none ∧ first [0x01, 0x7F, 0x02] 0x7F#8 = some 1) := by decide

theorem witness_TokNextTerminatesWithinMarkers : ([0x7F, 0x7F] : Bytes).count 0x7F#8 + 1 ≤ 3 := by decide

/-- T8, for `TokNextTakesFirstDelimitedRun`, `TokenShape` and `BufferAfterTokNext`, and T2 for the last. -/
theorem witness_TokNextToken :
    tokNext [0x7E, 0x01, 0x7E, 0x02, 0x7F, 0x09] = (some [0x7E, 0x01, 0x7E, 0x02, 0x7F], [0x09]) ∧
    tokNext [0x01, 0x02, 0x7E, 0x03] = (none, [0x7E, 0x03]) := by decide

theorem witness_TruncatedFrameMergesWithNext : 0x7F#8 ∉ ([0x01] : Bytes) ∧ 0x7F#8 ∉ ([0x02] : Bytes) := by decide

/-- A B with a whole token, which each cut drains. -/
theorem witness_TokensDoNotDependOnChunking_undrained :
    ([[0x7E], [0x01, 0x7F]] : List Bytes) ≠ [] ∧ ([[0x7E, 0x01, 0x7F]] : List Bytes) ≠ [] ∧
    withinCap (st [0x7E, 0x7F]).config.tokCap 5 = true ∧
    ([[0x7E], [0x01, 0x7F]] : List Bytes).flatten = ([[0x7E, 0x01, 0x7F]] : List Bytes).flatten := by decide

/-- A capacity that the bytes meet exactly, and a B with nothing left to drain. -/
theorem witness_TokensDoNotDependOnChunking : tokNext (st [0x7E] (.cap 5)).buffer = (none, (st [0x7E] (.cap 5)).buffer) ∧
    withinCap (st [0x7E] (.cap 5)).config.tokCap
      ((st [0x7E] (.cap 5)).buffer.length + ([[0x7E], [0x01, 0x7F, 0x7E]] : List Bytes).flatten.length) = true ∧
    ([[0x7E], [0x01, 0x7F, 0x7E]] : List Bytes).flatten = ([[0x7E, 0x01, 0x7F], [0x7E]] : List Bytes).flatten := by decide

theorem witness_StreamOfEncodedFramesIsRecovered : (st []).config.tokCap = .unbounded ∧ (st []).buffer = [] ∧
    [(Verification.crc16, startPrint)].map (fun f => frameEncode (st []).config f.1 f.2) = [e3].map .ok ∧
    [e3.take 9, e3.drop 9].flatten = [e3].flatten := by decide +kernel

theorem witness_EachAllowedStatusIsReached :
    Status.payloadLengthMismatch ∈ statusesOf (.frameDecodeNone []) ∧
    Status.tokenizerOverflow ∈ statusesOf (.tokAppend []) := by decide

/-- A list of bytes, a name bound by `tok.next`, and a name bound by an operation with a Seq result. -/
theorem witness_AssembledLineIsEncodedInstruction :
    let env : AsmEnv := [(['T'], .seq [0x01]), (['W'], .result (.seq e3))]
    AsmSeq.bytes [0x01] = .bytes [0x01] ∧ env.lookup ['T'] = some (.seq [0x01]) ∧
    env.lookup ['W'] = some (.result (.seq e3)) := by decide

theorem witness_ErrorChangesNothingElse :
    exec (.tokAppend [0x02]) (st [0x7E] (.cap 1)) =
      .next { st [0x7E] (.cap 1) with responses := [] ++ [⟨.tokenizerOverflow, .none⟩] } ∧
    Status.tokenizerOverflow ≠ .ok := ⟨rfl, by decide⟩

theorem witness_OnlyTokenizerTouchesBuffer :
    (∀ d, Instr.mod256 [0x01] ≠ .tokAppend d) ∧ Instr.mod256 [0x01] ≠ .tokNext := ⟨nofun, nofun⟩

/-- A TOK_NEXT that gives a token. -/
theorem witness_StepKeepsInv : Inv (pending [0x7E, 0x7F] [.request tokNextRequest]) ∧
    step (pending [0x7E, 0x7F] [.request tokNextRequest]) =
      .next { st [] with responses := [⟨.ok, .token true [0x7E, 0x7F]⟩] } :=
  ⟨⟨rfl, nofun⟩, rfl⟩

end Sys2Proof.Tests
end

section
/-!
PROOFS. The notation of 00_scope.md R10: 16-bit values laid out low byte first, and the search for the least index.
-/

namespace Sys2Proof.Machine

/-! ### Byte order -/

theorem rd16_of_getElem? {x : Bytes} {i : Nat} {a b : Byte} (ha : x[i]? = some a) (hb : x[i + 1]? = some b) :
    rd16 x i = b ++ a := by
  simp [rd16, List.getD_eq_getElem?_getD, ha, hb]

/-- R10's arithmetic form of a pair of bytes. -/
theorem toNat_pair (a b : Byte) : (b ++ a : Word).toNat = a.toNat + 256 * b.toNat := by
  rw [BitVec.toNat_append, ← Nat.shiftLeft_add_eq_or_of_lt a.isLt, Nat.shiftLeft_eq]
  omega

theorem extractLsb'_high_append_low (v : Word) : v.extractLsb' 8 8 ++ v.extractLsb' 0 8 = v := by
  calc v.extractLsb' 8 8 ++ v.extractLsb' 0 8
      = v.extractLsb' 0 (8 + 8) := BitVec.extractLsb'_append_extractLsb'_eq_extractLsb' rfl
    _ = v := BitVec.extractLsb'_eq_self

/-- Wherever the two bytes of `v` stand in a sequence, R28's read gives `v` back. -/
theorem rd16_append_le16 (pre post : Bytes) (v : Word) : rd16 (pre ++ le16 v ++ post) pre.length = v := by
  have low : (pre ++ le16 v ++ post)[pre.length]? = some (v.extractLsb' 0 8) := by simp [le16]
  have high : (pre ++ le16 v ++ post)[pre.length + 1]? = some (v.extractLsb' 8 8) := by simp [le16]
  rw [rd16_of_getElem? low high, extractLsb'_high_append_low]

/-- Settles O28: the read is the pair of bytes at the two indices, whose order is the one `le16` writes. -/
theorem littleEndianReadsBack : Obligations.LittleEndianReadsBack := by
  refine ⟨rd16_append_le16, fun x i a b ha hb => ?_⟩
  rw [rd16_of_getElem? ha hb, toNat_pair]

/-! ### The least index that holds a byte -/

theorem first_eq_none_iff {x : Bytes} {b : Byte} : first x b = none ↔ b ∉ x := by
  induction x with
  | nil => simp [first_nil]
  | cons y ys ih =>
    by_cases h : y = b
    · subst h
      simp [first_cons_self]
    · simp [first_cons_of_ne h, ih, Ne.symm h]

theorem forall_lt_succ_getElem?_cons_ne {y b : Byte} {ys : Bytes} {i : Nat} :
    (∀ j, j < i + 1 → (y :: ys)[j]? ≠ some b) ↔ y ≠ b ∧ ∀ j, j < i → ys[j]? ≠ some b := by
  rw [Nat.forall_lt_succ_left]
  simp

/-- Passing over a byte that is not `b` moves the least index of `b` up by one. -/
theorem first_eq_some_iff {x : Bytes} {b : Byte} {i : Nat} :
    first x b = some i ↔ x[i]? = some b ∧ ∀ j, j < i → x[j]? ≠ some b := by
  induction x generalizing i with
  | nil => simp [first_nil]
  | cons y ys ih =>
    by_cases h : y = b
    · subst h
      cases i with
      | zero => simp [first_cons_self]
      | succ i =>
        rw [forall_lt_succ_getElem?_cons_ne]
        simp [first_cons_self]
    · cases i with
      | zero => simp [first_cons_of_ne h, h]
      | succ i =>
        rw [forall_lt_succ_getElem?_cons_ne]
        simp [first_cons_of_ne h, ih, h]

/-- Settles O34, by the two inductions above on the sequence searched. -/
theorem firstIsLeastIndex : Obligations.FirstIsLeastIndex :=
  fun _ _ => ⟨fun _ => first_eq_some_iff, first_eq_none_iff⟩

end Sys2Proof.Machine
end

section
/-!
PROOFS. What the frame codec can answer: the statuses it raises, and the Frames it accepts (42_frame_codec.md R79, R84, R90);
and the direction bit of an Information record (10_state.md R24).
-/

namespace Sys2Proof.Machine

open Sys2Proof.Safety

/-! ### The direction of a frame -/

theorem word_eq_zero_iff {v : Word} : v = 0#16 ↔ v.extractLsb' 0 8 = 0#8 ∧ v.extractLsb' 8 8 = 0#8 := by
  constructor
  · rintro rfl
    decide
  · rintro ⟨low, high⟩
    rw [← extractLsb'_high_append_low v, low, high]
    rfl

/-- Settles O27: a field is zero exactly when both of its wire bytes are. -/
theorem fromPCNeedsAllSevenBytesZero : Obligations.FromPCNeedsAllSevenBytesZero := by
  intro i
  have bytes : info7 i = [i.ack, i.nr.extractLsb' 0 8, i.nr.extractLsb' 8 8, i.devStatus.extractLsb' 0 8,
      i.devStatus.extractLsb' 8 8, i.status.extractLsb' 0 8, i.status.extractLsb' 8 8] := rfl
  refine ⟨bytes, ?_⟩
  simp [fromPC, bytes, word_eq_zero_iff (v := i.nr), word_eq_zero_iff (v := i.devStatus),
    word_eq_zero_iff (v := i.status), and_assoc]

/-! ### FRAME_ENCODE -/

theorem frameEncode_error_mem {cfg : Config} {m : Verification} {f : FrameOperand} {e : Status}
    (h : frameEncode cfg m f = .error e) : e ∈ encodeStatuses := by
  unfold frameEncode at h
  split_ifs at h <;> cases h <;> decide

/-! ### FRAME_DECODE -/

/-- The frame fields that stand in a body (R49, R83 steps 5 to 7). -/
def bodyOperand (p : Bytes) : FrameOperand where
  address := p.getD 0 0#8
  command := rd16 p 1
  information := readInformation p 5
  data := p.drop headerLength

theorem syntacticallyValid_of_lookup {cfg : Config} {f : FrameOperand} {entry : CatEntry}
    (h : lookup cfg f.command = some entry) :
    syntacticallyValid cfg f =
      (ackLegal f.information.ack && accepts (lenSpecFor entry f.information) f.data.length) := by
  simp only [syntacticallyValid, h]

/-- What parsing a body can answer: the Frame it spells, when every check passes, or one of the statuses of R84. -/
theorem parseBody_cases (cfg : Config) (m : Verification) (p : Bytes) :
    (parseBody cfg m p = .ok (frameOf m (bodyOperand p)) ∧ headerLength ≤ p.length ∧ rd16 p 3 = dataOffsetValue ∧
      syntacticallyValid cfg (bodyOperand p) = true) ∨
    ∃ e ∈ decodeStatuses, parseBody cfg m p = .error e := by
  unfold parseBody
  split
  · exact .inr ⟨_, by decide, rfl⟩
  next hlen =>
    split
    · exact .inr ⟨_, by decide, rfl⟩
    next entry hcmd =>
      split_ifs with hoff hack hdata
      · exact .inr ⟨_, by decide, rfl⟩
      · exact .inr ⟨_, by decide, rfl⟩
      · exact .inr ⟨_, by decide, rfl⟩
      · have valid : syntacticallyValid cfg (bodyOperand p) = true := by
          rw [syntacticallyValid_of_lookup (f := bodyOperand p) hcmd]
          exact Bool.and_eq_true_iff.mpr ⟨eq_true_of_ne_false hack, eq_true_of_ne_false hdata⟩
        exact .inl ⟨rfl, not_lt.mp hlen, not_not.mp hoff, valid⟩

/-- What FRAME_DECODE can answer: the parse of a body, or one of the statuses of R84 before there is one. -/
theorem frameDecode_cases (cfg : Config) (m : Verification) (w : Bytes) :
    (∃ p, stripChecksum m (unescape (frameInterior w)) = some p ∧ frameDecode cfg m w = parseBody cfg m p) ∨
    ∃ e ∈ decodeStatuses, frameDecode cfg m w = .error e := by
  unfold frameDecode
  split_ifs
  · exact .inr ⟨_, by decide, rfl⟩
  · exact .inr ⟨_, by decide, rfl⟩
  · split
    · exact .inr ⟨_, by decide, rfl⟩
    next p hsum => exact .inl ⟨p, hsum, rfl⟩

theorem frameDecode_error_mem {cfg : Config} {m : Verification} {w : Bytes} {e : Status}
    (h : frameDecode cfg m w = .error e) : e ∈ decodeStatuses := by
  obtain ⟨p, -, hp⟩ | ⟨e', he', hw⟩ := frameDecode_cases cfg m w
  · obtain ⟨hok, -⟩ | ⟨e', he', herr⟩ := parseBody_cases cfg m p
    · cases h.symm.trans (hp.trans hok)
    · cases h.symm.trans (hp.trans herr)
      exact he'
  · cases h.symm.trans hw
    exact he'

/-- R90: FRAME_DECODE gives no Frame but one whose fields have all been checked. -/
theorem frameDecode_ok_validated {cfg : Config} {m : Verification} {w : Bytes} {g : Frame}
    (h : frameDecode cfg m w = .ok g) : FrameValidated cfg g := by
  obtain ⟨p, -, hp⟩ | ⟨e, -, hw⟩ := frameDecode_cases cfg m w
  · obtain ⟨hok, -, -, valid⟩ | ⟨e, -, herr⟩ := parseBody_cases cfg m p
    · cases h.symm.trans (hp.trans hok)
      exact ⟨rfl, valid⟩
    · cases h.symm.trans (hp.trans herr)
  · cases h.symm.trans hw

end Sys2Proof.Machine
end

section
/-!
PROOFS. What the tokenizer does to B: TOK_APPEND stays within TOK_CAP, and TOK_NEXT drops the bytes before a token, takes a token of
R99's shape and leaves the rest (43_tokenizer.md R95 to R100).
-/

namespace Sys2Proof.Machine

open Sys2Proof.Safety

/-! ### TOK_CAP -/

theorem withinCap_of_le {cap : TokCap} {m n : Nat} (hmn : m ≤ n) (h : withinCap cap n = true) :
    withinCap cap m = true := by
  cases cap with
  | unbounded => rfl
  | cap c => exact decide_eq_true (hmn.trans (of_decide_eq_true h))

theorem withinCap_zero (cap : TokCap) : withinCap cap 0 = true := by
  cases cap <;> simp [withinCap]

theorem tokAppend_cases (cap : TokCap) (b d : Bytes) :
    (tokAppend cap b d = .ok (b ++ d) ∧ withinCap cap (b ++ d).length = true) ∨
    (tokAppend cap b d = .error .tokenizerOverflow ∧ withinCap cap (b ++ d).length = false) := by
  rw [List.length_append]
  cases h : withinCap cap (b.length + d.length) with
  | true => exact .inl ⟨by simp [tokAppend, h], rfl⟩
  | false => exact .inr ⟨by simp [tokAppend, h], rfl⟩

/-! ### Cutting a token out of B -/

theorem take_append_slice_append_drop {s f : Nat} (b : Bytes) (h : s < f) :
    b.take s ++ slice b s f ++ b.drop (f + 1) = b := by
  have run : b.take s ++ slice b s f = b.take (f + 1) := by
    rw [← List.take_append_drop s (b.take (f + 1)), List.take_take, min_eq_left (by omega)]
    rfl
  rw [run, List.take_append_drop]

/-- The bytes from the first 0x7E through the first 0x7F, where that comes later, have the shape of R99. -/
theorem isToken_slice {b : Bytes} {s f : Nat} (hs : first b sof = some s) (hf : first b eof = some f) (h : s < f) :
    IsToken (slice b s f) := by
  obtain ⟨hsof, -⟩ := first_eq_some_iff.mp hs
  obtain ⟨heof, hleast⟩ := first_eq_some_iff.mp hf
  have hlt : f < b.length := (List.getElem?_eq_some_iff.mp heof).1
  have hlen : (slice b s f).length = f + 1 - s := by simp [slice]; omega
  have at_index (j : Nat) (hj : j < f + 1 - s) : (slice b s f)[j]? = b[s + j]? := by
    rw [slice, List.getElem?_drop, List.getElem?_take_of_lt (by omega)]
  refine ⟨by omega, ?_, ?_, ?_⟩
  · rw [List.head?_eq_getElem?, at_index 0 (by omega)]
    exact hsof
  · rw [List.getLast?_eq_getElem?, hlen, at_index _ (by omega), show s + (f + 1 - s - 1) = f by omega]
    exact heof
  · intro hmem
    obtain ⟨j, hj⟩ := List.mem_iff_getElem?.mp hmem
    have hjlt : j < f - s := by
      have := (List.getElem?_eq_some_iff.mp hj).1
      rw [List.length_dropLast] at this
      omega
    rw [List.getElem?_dropLast, if_pos (by omega), at_index j (by omega)] at hj
    exact hleast (s + j) (by omega) hj

/-- How TOK_NEXT cuts B into an outcome: bytes that are dropped, a token if there is one, and the rest (R96, R99, R100). -/
def CutsInto (b : Bytes) (outcome : Option Bytes × Bytes) : Prop :=
  ∃ dropped, b = dropped ++ outcome.1.getD [] ++ outcome.2 ∧ ∀ t, outcome.1 = some t → IsToken t

theorem cutsInto_none_drop (b : Bytes) (n : Nat) : CutsInto b (none, b.drop n) :=
  ⟨b.take n, by simp, nofun⟩

theorem CutsInto.of_drop {b : Bytes} {n : Nat} {outcome : Option Bytes × Bytes} (h : CutsInto (b.drop n) outcome) :
    CutsInto b outcome := by
  obtain ⟨dropped, hb, htoken⟩ := h
  refine ⟨b.take n ++ dropped, ?_, htoken⟩
  rw [List.append_assoc, List.append_assoc, ← List.append_assoc dropped, ← hb, List.take_append_drop]

theorem tokNextLoop_cutsInto (n : Nat) (b : Bytes) : CutsInto b (tokNextLoop n b) := by
  induction n generalizing b with
  | zero => exact cutsInto_none_drop b 0
  | succ n ih =>
    cases hs : first b sof with
    | none =>
      cases hf : first b eof with
      | none => rw [tokNextLoop_neither n hs hf]; exact cutsInto_none_drop b 0
      | some f => rw [tokNextLoop_end n hs hf]; exact (ih _).of_drop
    | some s =>
      cases hf : first b eof with
      | none => rw [tokNextLoop_start n hs hf]; exact cutsInto_none_drop b s
      | some f =>
        by_cases h : s < f
        · rw [tokNextLoop_frame n hs hf h]
          refine ⟨b.take s, (take_append_slice_append_drop b h).symm, ?_⟩
          rintro t ⟨⟩
          exact isToken_slice hs hf h
        · rw [tokNextLoop_orphan n hs hf h]
          exact (ih _).of_drop

theorem tokNext_cutsInto (b : Bytes) : CutsInto b (tokNext b) := tokNextLoop_cutsInto (b.length + 1) b

theorem tokNext_isToken {b t : Bytes} (h : (tokNext b).1 = some t) : IsToken t := by
  obtain ⟨-, -, htoken⟩ := tokNext_cutsInto b
  exact htoken t h

theorem tokNext_length_le (b : Bytes) : (tokNext b).2.length ≤ b.length := by
  obtain ⟨dropped, hb, -⟩ := tokNext_cutsInto b
  have rest : (tokNext b).2 <:+ b := ⟨_, hb.symm⟩
  exact rest.length_le

end Sys2Proof.Machine
end

section
/-!
PROOFS. What one operation can do to the state, said once: B and the parameters alone decide the new B and the one response,
and nothing else changes (10_state.md R17, R19; 60_exceptions.md R105, R107).
-/

namespace Sys2Proof.Machine

open Sys2Proof.Safety

/-! ### Responses an operation may give -/

/-- What a result may hold: only a validated Frame (R90) and only a token of R99's shape. -/
def ResultSound (cfg : Config) (r : Result) : Prop :=
  (∀ f, r = .frame (some f) → FrameValidated cfg f) ∧ ∀ t, r = .token true t → IsToken t

/-- A response that the operation `i` may give: a status R105 lists for it, the empty result of its shape on an error (R42),
and a sound result. -/
structure MayAnswer (cfg : Config) (i : Instr) (x : Response) : Prop where
  status_mem : x.status ∈ statusesOf i
  empty_of_error : x.status ≠ .ok → x.result = emptyResult i
  result_sound : ResultSound cfg x.result

theorem isEmptyResult_emptyResult (i : Instr) : isEmptyResult (emptyResult i) = true := by
  cases i <;> rfl

theorem resultSound_emptyResult (cfg : Config) (i : Instr) : ResultSound cfg (emptyResult i) := by
  cases i <;> exact ⟨nofun, nofun⟩

theorem ok_mem_statusesOf (i : Instr) : Status.ok ∈ statusesOf i := by
  cases i <;> exact List.mem_cons_self

theorem payloadCodecStatus_notMem_statusesOf (i : Instr) :
    Status.encodingValueError ∉ statusesOf i ∧ Status.incorrectByteCount ∉ statusesOf i := by
  cases i <;> simp [statusesOf, encodeStatuses, decodeStatuses]

theorem MayAnswer.responseSound {cfg : Config} {i : Instr} {x : Response} (h : MayAnswer cfg i x) :
    ResponseSound cfg x := by
  obtain ⟨hvalue, hcount⟩ := payloadCodecStatus_notMem_statusesOf i
  refine ⟨fun herr => ?_, ?_, ?_, h.result_sound.1, h.result_sound.2⟩
  · rw [h.empty_of_error herr]
    exact isEmptyResult_emptyResult i
  · exact fun hx => hvalue (hx ▸ h.status_mem)
  · exact fun hx => hcount (hx ▸ h.status_mem)

theorem responseSound_illegalOperation (cfg : Config) : ResponseSound cfg ⟨.illegalOperation, .none⟩ :=
  ⟨fun _ => rfl, nofun, nofun, nofun, nofun⟩

theorem mayAnswer_returned {cfg : Config} {r : Result} (i : Instr) (h : ResultSound cfg r) :
    MayAnswer cfg i (returned r) :=
  ⟨ok_mem_statusesOf i, fun herr => absurd rfl herr, h⟩

theorem mayAnswer_raised (cfg : Config) {i : Instr} {e : Status} (h : e ∈ statusesOf i) :
    MayAnswer cfg i (raised e (emptyResult i)) :=
  ⟨h, fun _ => rfl, resultSound_emptyResult cfg i⟩

/-! ### The operations that leave B alone -/

/-- The parameters alone decide the one response of `i`, and `i` changes nothing else (R17). -/
def AnswersWithoutBuffer (cfg : Config) (i : Instr) : Prop :=
  ∃ x, MayAnswer cfg i x ∧ ∀ s : State, s.config = cfg → exec i s = .next (s.respond x)

theorem answersWithoutBuffer_of_map {α : Type} {cfg : Config} {i : Instr} {x : Except Status α} {g : α → Result}
    (hexec : ∀ s : State, s.config = cfg → exec i s = answer (emptyResult i) (x.map g) s)
    (hok : ∀ a, x = .ok a → ResultSound cfg (g a)) (herr : ∀ e, x = .error e → e ∈ statusesOf i) :
    AnswersWithoutBuffer cfg i := by
  cases x with
  | ok a => exact ⟨returned (g a), mayAnswer_returned i (hok a rfl), hexec⟩
  | error e => exact ⟨raised e (emptyResult i), mayAnswer_raised cfg (herr e rfl), hexec⟩

theorem answersWithoutBuffer_of_ok {cfg : Config} {i : Instr} {r : Result}
    (hexec : ∀ s, exec i s = answer (emptyResult i) (.ok r) s) (hr : ResultSound cfg r) :
    AnswersWithoutBuffer cfg i :=
  ⟨returned r, mayAnswer_returned i hr, fun s _ => hexec s⟩

theorem frameEncode_answersWithoutBuffer (cfg : Config) (m : Verification) (f : FrameOperand) :
    AnswersWithoutBuffer cfg (frameEncodeInstr m f) := by
  apply answersWithoutBuffer_of_map (x := frameEncode cfg m f) (g := .seq)
  · rintro s rfl
    cases m <;> rfl
  · exact fun w _ => ⟨nofun, nofun⟩
  · intro e he
    cases m <;> exact frameEncode_error_mem he

theorem frameDecode_answersWithoutBuffer (cfg : Config) (m : Verification) (w : Bytes) :
    AnswersWithoutBuffer cfg (frameDecodeInstr m w) := by
  apply answersWithoutBuffer_of_map (x := frameDecode cfg m w) (g := fun g => .frame (some g))
  · rintro s rfl
    cases m <;> rfl
  · intro g hg
    refine ⟨?_, nofun⟩
    rintro _ ⟨⟩
    exact frameDecode_ok_validated hg
  · intro e he
    cases m <;> exact frameDecode_error_mem he

theorem answersWithoutBuffer (cfg : Config) {i : Instr} (happend : ∀ d, i ≠ .tokAppend d) (hnext : i ≠ .tokNext) :
    AnswersWithoutBuffer cfg i := by
  cases i with
  | crc16X25 d => exact answersWithoutBuffer_of_ok (fun _ => rfl) ⟨nofun, nofun⟩
  | mod256 d => exact answersWithoutBuffer_of_ok (fun _ => rfl) ⟨nofun, nofun⟩
  | escape d => exact answersWithoutBuffer_of_ok (fun _ => rfl) ⟨nofun, nofun⟩
  | unescape d => exact answersWithoutBuffer_of_ok (fun _ => rfl) ⟨nofun, nofun⟩
  | frameEncodeNone f => exact frameEncode_answersWithoutBuffer cfg .none f
  | frameEncodeMod256 f => exact frameEncode_answersWithoutBuffer cfg .mod256 f
  | frameEncodeCrc16 f => exact frameEncode_answersWithoutBuffer cfg .crc16 f
  | frameDecodeNone w => exact frameDecode_answersWithoutBuffer cfg .none w
  | frameDecodeMod256 w => exact frameDecode_answersWithoutBuffer cfg .mod256 w
  | frameDecodeCrc16 w => exact frameDecode_answersWithoutBuffer cfg .crc16 w
  | tokAppend d => exact absurd rfl (happend d)
  | tokNext => exact absurd rfl hnext

/-! ### Every operation -/

theorem resultSound_tokenResult (cfg : Config) (b : Bytes) : ResultSound cfg (tokenResult (tokNext b).1) := by
  cases h : (tokNext b).1 with
  | none => exact ⟨nofun, nofun⟩
  | some t => exact ⟨nofun, by rintro _ ⟨⟩; exact tokNext_isToken h⟩

/-- What an operation can do: the parameters and B decide the new B, which is within TOK_CAP if B was, and the one response;
the rest of the state is kept. -/
theorem exec_effect (i : Instr) (cfg : Config) (b : Bytes) :
    ∃ b' x, (withinCap cfg.tokCap b.length = true → withinCap cfg.tokCap b'.length = true) ∧ MayAnswer cfg i x ∧
      ∀ s : State, s.config = cfg → s.buffer = b → exec i s = .next ((s.setBuffer b').respond x) := by
  by_cases happend : ∃ d, i = .tokAppend d
  · obtain ⟨d, rfl⟩ := happend
    obtain ⟨hok, hfits⟩ | ⟨herr, -⟩ := tokAppend_cases cfg.tokCap b d
    · refine ⟨b ++ d, returned .none, fun _ => hfits, mayAnswer_returned _ ⟨nofun, nofun⟩, ?_⟩
      rintro s rfl rfl
      simp [exec, execTokAppend, hok, Except.map, answerBuffer, State.ret]
    · refine ⟨b, raised .tokenizerOverflow .none, id, mayAnswer_raised cfg (i := .tokAppend d) (by simp [statusesOf]), ?_⟩
      rintro s rfl rfl
      simp [exec, execTokAppend, herr, Except.map, answerBuffer, State.raise, State.setBuffer]
  by_cases hnext : i = .tokNext
  · subst hnext
    refine ⟨(tokNext b).2, returned (tokenResult (tokNext b).1), withinCap_of_le (tokNext_length_le b),
      mayAnswer_returned _ (resultSound_tokenResult cfg b), ?_⟩
    rintro s rfl rfl
    rfl
  obtain ⟨x, hx, hexec⟩ := answersWithoutBuffer cfg (fun d hd => happend ⟨d, hd⟩) hnext
  refine ⟨b, x, id, hx, ?_⟩
  rintro s hs rfl
  exact hexec s hs

/-- Settles O48: the response of `answersWithoutBuffer` is chosen before the buffer is known. -/
theorem onlyTokenizerTouchesBuffer : Obligations.OnlyTokenizerTouchesBuffer := by
  intro i happend hnext s
  obtain ⟨x, -, hexec⟩ := answersWithoutBuffer s.config happend hnext
  exact ⟨x, fun b => hexec { s with buffer := b } rfl⟩

/-- Settles O49: the new B and the response of `exec_effect` are chosen before the responses given so far are known. -/
theorem earlierResponsesAreNotRead : Obligations.EarlierResponsesAreNotRead := by
  intro i s
  obtain ⟨b, x, -, -, hexec⟩ := exec_effect i s.config s.buffer
  exact ⟨b, x, fun rs => hexec { s with responses := rs } rfl rfl⟩

end Sys2Proof.Machine
end

section
/-!
PROOFS. What one step can do to the state, and the invariant it keeps (10_state.md R16, R18, R20; 70_reset_and_hazards.md
R119 to R121).
-/

namespace Sys2Proof.Machine

open Sys2Proof.Safety

/-- What serving a request can do: it gives one sound response and keeps B within TOK_CAP. -/
theorem serve_effect (r : Request) (s : State) :
    ∃ b x, serve r s = .next { s with buffer := b, responses := s.responses ++ [x] } ∧
      (BufferFits s → withinCap s.config.tokCap b.length = true) ∧ ResponseSound s.config x := by
  obtain ⟨i, -, hserve⟩ | ⟨w, -, hserve⟩ := serve_cases r s
  · obtain ⟨b, x, hfits, hx, hexec⟩ := exec_effect i s.config s.buffer
    exact ⟨b, x, hserve.trans (hexec s rfl rfl), hfits, hx.responseSound⟩
  · exact ⟨s.buffer, _, hserve, id, responseSound_illegalOperation s.config⟩

/-- What a step can do: it takes the first input, if any, gives sound responses, keeps B within TOK_CAP, and writes nothing
else. -/
theorem step_effect (s : State) :
    ∃ b rs, step s = .next { s with buffer := b, inputs := s.inputs.drop 1, responses := s.responses ++ rs } ∧
      (BufferFits s → withinCap s.config.tokCap b.length = true) ∧ ∀ x ∈ rs, ResponseSound s.config x := by
  obtain ⟨buffer, config, inputs, responses⟩ := s
  match inputs with
  | [] => exact ⟨buffer, [], (acceptNext_idle rfl).trans (by simp), id, nofun⟩
  | .reset :: rest => exact ⟨[], [], (acceptNext_reset rfl).trans (by simp), fun _ => withinCap_zero _, nofun⟩
  | .request r :: rest =>
    obtain ⟨b, x, hserve, hfits, hx⟩ := serve_effect r ⟨buffer, config, rest, responses⟩
    exact ⟨b, [x], (acceptNext_request rfl).trans hserve, hfits, by simpa using hx⟩

/-- Settles O50. -/
theorem stepNeverStopsNorReconfigures : Obligations.StepNeverStopsNorReconfigures := by
  intro s
  obtain ⟨b, rs, hstep, -, -⟩ := step_effect s
  exact ⟨_, hstep, rfl, rfl⟩

/-- Settles O7: the first case of serving what the host presents. -/
theorem blockWaitsWithoutRequest : Obligations.BlockWaitsWithoutRequest :=
  fun _ hidle => acceptNext_idle hidle

/-- Settles O52: the responses a step adds are sound, and the parameters they are judged by do not change. -/
theorem stepKeepsInv : Obligations.StepKeepsInv := by
  rintro s t ⟨hfits, hsound⟩ hst
  obtain ⟨b, rs, hstep, hfits', hrs⟩ := step_effect s
  cases hst.symm.trans hstep
  refine ⟨hfits' hfits, fun x hx => ?_⟩
  obtain hold | hnew := List.mem_append.mp hx
  · exact hsound x hold
  · exact hrs x hnew

/-! ### Reset -/

/-- Settles O9: 0x0018 is the first row of the catalog, whatever its entry. -/
theorem resetStateOfBlock : Obligations.ResetStateOfBlock := by
  refine ⟨rfl, rfl, ?_⟩
  have row : lookup State.reset.config Config.startPrint = some Config.startPrintEntry := by
    simp [lookup, State.reset, Config.block, catFind]
  exact congrArg Option.isSome row

theorem inv_of_empty {s : State} (hbuffer : s.buffer = []) (hresponses : s.responses = []) : Inv s := by
  refine ⟨?_, by simp [hresponses]⟩
  rw [BufferFits, hbuffer]
  exact withinCap_zero _

/-- Settles O53: an empty B is within every capacity, and no response has been given. -/
theorem resetHasInv : Obligations.ResetHasInv :=
  ⟨inv_of_empty rfl rfl, fun _ => inv_of_empty rfl rfl⟩

end Sys2Proof.Machine
end

section
/-!
PROOFS. What a run does with what the host has presented: each step serves one input, and the responses answer the requests
among them in their order (20_memory.md R36; 30_encoding.md R40, R42, R46).
-/

namespace Sys2Proof.Machine

open Sys2Proof.Safety

/-! ### The requests among the inputs -/

theorem requestsOf_append (xs ys : List HostInput) : requestsOf (xs ++ ys) = requestsOf xs ++ requestsOf ys := by
  induction xs with
  | nil => rfl
  | cons x xs ih => cases x <;> simp [ih]

theorem requestsOf_length (xs : List HostInput) : (requestsOf xs).length = xs.countP (fun x => x ≠ .reset) := by
  induction xs with
  | nil => rfl
  | cons x xs ih => cases x <;> simp [ih]

/-! ### Responses that answer inputs -/

/-- The responses of `t` are those of `s`, followed by one for each request among `xs`, in their order. -/
def AnswersInputs (xs : List HostInput) (s t : State) : Prop :=
  ∃ rs, t.responses = s.responses ++ rs ∧ List.Forall₂ AnswersRequest (requestsOf xs) rs

theorem answersInputs_of_no_request {xs : List HostInput} {s t : State} (hxs : requestsOf xs = [])
    (hst : t.responses = s.responses) : AnswersInputs xs s t :=
  ⟨[], by simp [hst], by simp [hxs]⟩

theorem AnswersInputs.append {xs ys : List HostInput} {s t u : State} (hst : AnswersInputs xs s t)
    (htu : AnswersInputs ys t u) : AnswersInputs (xs ++ ys) s u := by
  obtain ⟨rs, ht, hrs⟩ := hst
  obtain ⟨qs, hu, hqs⟩ := htu
  refine ⟨rs ++ qs, by rw [hu, ht, List.append_assoc], ?_⟩
  rw [requestsOf_append]
  exact List.rel_append hrs hqs

/-! ### One request, one step, a run -/

theorem MayAnswer.answersRequest {cfg : Config} {r : Request} {i : Instr} {x : Response} (h : MayAnswer cfg i x)
    (hdecode : decode r = .ok i) : AnswersRequest r x :=
  (answersRequest_of_ok hdecode).mpr ⟨h.status_mem, h.empty_of_error⟩

theorem serve_answersRequest (r : Request) (s : State) :
    ∃ b x, serve r s = .next ((s.setBuffer b).respond x) ∧ AnswersRequest r x := by
  obtain ⟨i, hdecode, hserve⟩ | ⟨w, hdecode, hserve⟩ := serve_cases r s
  · obtain ⟨b, x, -, hx, hexec⟩ := exec_effect i s.config s.buffer
    exact ⟨b, x, hserve.trans (hexec s rfl rfl), hx.answersRequest hdecode⟩
  · exact ⟨s.buffer, _, hserve, (answersRequest_of_error hdecode).mpr rfl⟩

/-- A step takes the first input, if any, and answers it if it is a request. -/
theorem step_answersInputs (s : State) :
    ∃ t, step s = .next t ∧ t.inputs = s.inputs.drop 1 ∧ AnswersInputs (s.inputs.take 1) s t := by
  cases h : s.inputs with
  | nil => exact ⟨s, acceptNext_idle h, h, answersInputs_of_no_request rfl rfl⟩
  | cons input rest =>
    cases input with
    | reset => exact ⟨_, acceptNext_reset h, rfl, answersInputs_of_no_request rfl rfl⟩
    | request r =>
      obtain ⟨b, x, hserve, hx⟩ := serve_answersRequest r { s with inputs := rest }
      exact ⟨_, (acceptNext_request h).trans hserve, rfl, [x], rfl, .cons hx .nil⟩

theorem run_succ_of_step {M : Host.Core} {s t : M.State} (k : Nat) (h : M.step s = .next t) :
    M.run (k + 1) s = M.run k t := by
  simp only [Host.Core.run, h]

theorem run_answersInputs (k : Nat) (s : State) :
    ∃ t : State, Host.Core.run Sys2Proof.core k s = .next t ∧ t.inputs = s.inputs.drop k ∧
      AnswersInputs (s.inputs.take k) s t := by
  induction k generalizing s with
  | zero => exact ⟨s, rfl, rfl, answersInputs_of_no_request rfl rfl⟩
  | succ k ih =>
    obtain ⟨t, hstep, ht, hfirst⟩ := step_answersInputs s
    obtain ⟨u, hrun, hu, hlater⟩ := ih t
    rw [ht] at hu hlater
    refine ⟨u, (run_succ_of_step (M := Sys2Proof.core) k hstep).trans hrun, ?_, ?_⟩
    · rw [hu, List.drop_drop, Nat.add_comm]
    · rw [Nat.add_comm k 1, List.take_add]
      exact hfirst.append hlater

/-- Settles O51, by induction on the number of steps; the count follows from the pairing of requests and responses. -/
theorem everyRequestIsAnsweredOnce : Obligations.EveryRequestIsAnsweredOnce := by
  intro s k
  obtain ⟨t, hrun, hinputs, rs, hresponses, hanswers⟩ := run_answersInputs k s
  refine ⟨t, hrun, hinputs, rs, hresponses, ?_, hanswers⟩
  rw [← hanswers.length_eq, requestsOf_length]

end Sys2Proof.Machine
end

section
/-!
PROOFS. Requests and operation words: the decoder against the encoder and against the four conditions of R46, and what
the step does with a legal and with an illegal word (30_encoding.md R41 to R47).
-/

namespace Sys2Proof.Machine

/-! ### The decoder and the encoder -/

/-- The operation of `i` on the operand a request carries: it takes the part that R43 gives it and no other. -/
def withOperand (o : Operand) : Instr → Instr
  | .crc16X25 _ => .crc16X25 o.seq
  | .mod256 _ => .mod256 o.seq
  | .escape _ => .escape o.seq
  | .unescape _ => .unescape o.seq
  | .frameEncodeNone _ => .frameEncodeNone o.frame
  | .frameEncodeMod256 _ => .frameEncodeMod256 o.frame
  | .frameEncodeCrc16 _ => .frameEncodeCrc16 o.frame
  | .frameDecodeNone _ => .frameDecodeNone o.seq
  | .frameDecodeMod256 _ => .frameDecodeMod256 o.seq
  | .frameDecodeCrc16 _ => .frameDecodeCrc16 o.seq
  | .tokAppend _ => .tokAppend o.seq
  | .tokNext => .tokNext

/-- The word selects the operation, whatever the operand port carries. -/
theorem decode_opwordOfInstr (i : Instr) (o : Operand) : decode ⟨opwordOfInstr i, o⟩ = .ok (withOperand o i) := by
  cases i <;> rfl

@[simp] theorem withOperand_operandOfInstr (i : Instr) : withOperand (operandOfInstr i) i = i := by
  cases i <;> rfl

theorem withOperand_eq_self_iff (o : Operand) (i : Instr) : withOperand o i = i ↔
    (readsSeq i = true → o.seq = (operandOfInstr i).seq) ∧
    (readsFrame i = true → o.frame = (operandOfInstr i).frame) := by
  cases i <;> simp [withOperand, readsSeq, readsFrame, operandOfInstr]

theorem decode_encode (i : Instr) : decode (encode i) = .ok i := by
  rw [encode, decode_opwordOfInstr, withOperand_operandOfInstr]

/-- The table of R44 read backwards: each row has the word of its operation. -/
theorem opword_of_decode {r : Request} {i : Instr} (h : decode r = .ok i) : r.opword = opwordOfInstr i := by
  unfold decode at h
  split at h <;> cases h <;> assumption

theorem error_of_decode {r : Request} {e : DecodeError} (h : decode r = .error e) :
    e = .illegalOperation r.opword := by
  unfold decode at h
  split at h <;> cases h
  rfl

/-- Settles O1, by evaluating the table on its twelve words. -/
theorem writtenOutWordsDecode : Obligations.WrittenOutWordsDecode := by
  intro o
  exact ⟨rfl, rfl, rfl, rfl, rfl, rfl, rfl, rfl, rfl, rfl, rfl, rfl⟩

/-- Settles O2. -/
theorem decodeOfEncode : Obligations.DecodeOfEncode := decode_encode

/-- Settles O3: the word selects the operation, and the operation with that operand is `i` exactly when what `i` reads is
`i`'s own. -/
theorem decodedRequestEncodesBack : Obligations.DecodedRequestEncodesBack := by
  rintro ⟨w, o⟩ i
  constructor
  · intro h
    obtain rfl : w = opwordOfInstr i := opword_of_decode h
    rw [decode_opwordOfInstr, Except.ok.injEq, withOperand_eq_self_iff] at h
    exact ⟨rfl, h⟩
  · rintro ⟨hword, hreads⟩
    obtain rfl : w = opwordOfInstr i := hword
    rw [decode_opwordOfInstr, (withOperand_eq_self_iff o i).mpr hreads]

/-! ### Legal and illegal words -/

theorem opwordLegal_iff (w : Word) : WellFormed.opwordLegal w = true ↔
    (1 ≤ w.toNat % 256 ∧ w.toNat % 256 ≤ 8) ∧ w.toNat / 1024 = 0 ∧
    ((w.toNat % 256 = 5 ∨ w.toNat % 256 = 6) ∧ w.toNat / 256 % 4 ≠ 3 ∨ w.toNat / 256 % 4 = 0) := by
  simp only [WellFormed.opwordLegal, WellFormed.opKnown, WellFormed.rsvZero, WellFormed.modeZeroUnlessFrame,
    WellFormed.modeNotReserved, WellFormed.takesMode, WellFormed.opNumber, WellFormed.modeNumber, WellFormed.rsvNumber,
    Bool.and_eq_true, Bool.or_eq_true, Bool.not_eq_true', Bool.and_eq_false_iff, Bool.or_eq_false_iff,
    decide_eq_true_eq, beq_iff_eq, beq_eq_false_iff_ne]
  omega

open Sys2Proof.Laws in
theorem opwordLegal_opwordOfInstr (i : Instr) : WellFormed.opwordLegal (opwordOfInstr i) = true := by
  cases i with
  | crc16X25 d => exact EncodedRequestIsLegal.crc16X25 d
  | mod256 d => exact EncodedRequestIsLegal.mod256 d
  | escape d => exact EncodedRequestIsLegal.escape d
  | unescape d => exact EncodedRequestIsLegal.unescape d
  | frameEncodeNone f => exact EncodedRequestIsLegal.frameEncodeNone f
  | frameEncodeMod256 f => exact EncodedRequestIsLegal.frameEncodeMod256 f
  | frameEncodeCrc16 f => exact EncodedRequestIsLegal.frameEncodeCrc16 f
  | frameDecodeNone w => exact EncodedRequestIsLegal.frameDecodeNone w
  | frameDecodeMod256 w => exact EncodedRequestIsLegal.frameDecodeMod256 w
  | frameDecodeCrc16 w => exact EncodedRequestIsLegal.frameDecodeCrc16 w
  | tokAppend d => exact EncodedRequestIsLegal.tokAppend d
  | tokNext => exact EncodedRequestIsLegal.tokNext

/-- The conditions of R46 leave no word but the twelve of R44. -/
theorem exists_instr_of_opwordLegal {w : Word} (h : WellFormed.opwordLegal w = true) : ∃ i, w = opwordOfInstr i := by
  have word_eq (i : Instr) (hi : w.toNat = (opwordOfInstr i).toNat) : ∃ i, w = opwordOfInstr i :=
    ⟨i, BitVec.eq_of_toNat_eq hi⟩
  have numbers : w.toNat = 0x0001 ∨ w.toNat = 0x0002 ∨ w.toNat = 0x0003 ∨ w.toNat = 0x0004 ∨
      w.toNat = 0x0005 ∨ w.toNat = 0x0105 ∨ w.toNat = 0x0205 ∨
      w.toNat = 0x0006 ∨ w.toNat = 0x0106 ∨ w.toNat = 0x0206 ∨ w.toNat = 0x0007 ∨ w.toNat = 0x0008 := by
    rw [opwordLegal_iff] at h
    omega
  obtain h | h | h | h | h | h | h | h | h | h | h | h := numbers
  · exact word_eq (.crc16X25 []) h
  · exact word_eq (.mod256 []) h
  · exact word_eq (.escape []) h
  · exact word_eq (.unescape []) h
  · exact word_eq (.frameEncodeNone zeroFrameOperand) h
  · exact word_eq (.frameEncodeMod256 zeroFrameOperand) h
  · exact word_eq (.frameEncodeCrc16 zeroFrameOperand) h
  · exact word_eq (.frameDecodeNone []) h
  · exact word_eq (.frameDecodeMod256 []) h
  · exact word_eq (.frameDecodeCrc16 []) h
  · exact word_eq (.tokAppend []) h
  · exact word_eq .tokNext h

theorem decode_ok_iff_opwordLegal (r : Request) :
    (∃ i, decode r = .ok i) ↔ WellFormed.opwordLegal r.opword = true := by
  constructor
  · rintro ⟨i, h⟩
    rw [opword_of_decode h]
    exact opwordLegal_opwordOfInstr i
  · intro h
    obtain ⟨w, o⟩ := r
    obtain ⟨i, rfl⟩ := exists_instr_of_opwordLegal h
    exact ⟨_, decode_opwordOfInstr i o⟩

theorem decode_error_iff_not_opwordLegal (r : Request) :
    decode r = .error (.illegalOperation r.opword) ↔ WellFormed.opwordLegal r.opword = false := by
  rw [← Bool.not_eq_true, ← decode_ok_iff_opwordLegal]
  cases h : decode r with
  | ok i => simp
  | error e => simp [error_of_decode h]

/-- Settles O4: a word is legal exactly when it is the word of an instruction. -/
theorem decodeAcceptsExactlyLegalWords : Obligations.DecodeAcceptsExactlyLegalWords :=
  fun r => ⟨decode_ok_iff_opwordLegal r, decode_error_iff_not_opwordLegal r⟩

/-! ### Serving a request -/

theorem serve_of_decode_ok {r : Request} {i : Instr} (h : decode r = .ok i) (s : State) : serve r s = exec i s := by
  simp only [serve, h]

theorem serve_of_not_opwordLegal {r : Request} (h : WellFormed.opwordLegal r.opword = false) (s : State) :
    serve r s = .next (s.raise .illegalOperation .none) := by
  simp only [serve, (decode_error_iff_not_opwordLegal r).mpr h]

/-- Settles O5: the step hands the first request to `serve`, which runs what it decodes to. -/
theorem stepRunsDecodedRequest : Obligations.StepRunsDecodedRequest :=
  fun _ _ _ _ hinputs hdecode => (acceptNext_request hinputs).trans (serve_of_decode_ok hdecode _)

theorem step_of_not_opwordLegal {s : State} {r : Request} {rest : List HostInput}
    (hinputs : s.inputs = .request r :: rest) (h : WellFormed.opwordLegal r.opword = false) :
    step s = .next { s with inputs := rest, responses := s.responses ++ [⟨.illegalOperation, .none⟩] } :=
  (acceptNext_request hinputs).trans (serve_of_not_opwordLegal h _)

/-- Settles O6: the step on an illegal word does not mention the operand. -/
theorem illegalWordRaisesIllegalOperation : Obligations.IllegalWordRaisesIllegalOperation := by
  intro s r rest hinputs h
  have hstep := step_of_not_opwordLegal hinputs h
  refine ⟨⟨.none, hstep⟩, fun o => ?_⟩
  rw [hstep]
  exact step_of_not_opwordLegal (s := { s with inputs := .request ⟨r.opword, o⟩ :: rest }) rfl h

/-- An operation word with the lowest `rsv` bit set and mode 00, illegal by R46's second condition. -/
def reservedWord (op : Byte) : Word := 0b000001_00#8 ++ op

theorem reservedWord_op (op : Byte) : (reservedWord op).extractLsb' 0 8 = op :=
  BitVec.extractLsb'_append_eq_right

theorem reservedWord_not_opwordLegal (op : Byte) : WellFormed.opwordLegal (reservedWord op) = false := by
  have hword : (reservedWord op).toNat = op.toNat + 256 * 4 := toNat_pair op 0b000001_00#8
  rw [← Bool.not_eq_true, opwordLegal_iff]
  omega

/-- Settles O56: the word with the operation's op field and a reserved bit set. -/
theorem everyOperationHasIllegalWords : Obligations.EveryOperationHasIllegalWords :=
  fun _ => ⟨reservedWord _, reservedWord_op _, fun _ _ _ =>
    ⟨.none, step_of_not_opwordLegal rfl (reservedWord_not_opwordLegal _)⟩⟩

/-- Settles O45: the effect of an operation, read at the state's own parameters and buffer. -/
theorem operationAnswersWithAllowedStatus : Obligations.OperationAnswersWithAllowedStatus := by
  intro i s
  obtain ⟨b, x, -, hx, hexec⟩ := exec_effect i s.config s.buffer
  exact ⟨b, x, hexec s rfl rfl, hx.status_mem, hx.empty_of_error⟩

end Sys2Proof.Machine
end

section
/-!
PROOFS. Assembled lines: the request of a line is that of the instruction its mnemonic names (30_encoding.md R54).
-/

namespace Sys2Proof.Machine

/-- The Seq operand `q` stands for `d`: it is the list, or a name bound earlier to it (R54; log entry 13). -/
theorem asmSeqValue_of_bound {env : AsmEnv} {q : AsmSeq} {d : Bytes}
    (h : q = .bytes d ∨
      ∃ n, q = .name n ∧ (env.lookup n = some (.seq d) ∨ env.lookup n = some (.result (.seq d)))) :
    asmSeqValue env q = some d := by
  obtain rfl | ⟨n, rfl, hn | hn⟩ := h
  · rfl
  · simp only [asmSeqValue, hn]
  · simp only [asmSeqValue, hn]

section

variable {m : List Char} {w : Word} {env : AsmEnv} {q : AsmSeq} {d : Bytes}

theorem assemble_seq (b : AsmBinding) (hm : asmOpword m = some w)
    (hw : ¬ (w = 0x0008#16 ∨ w = 0x0005#16 ∨ w = 0x0105#16 ∨ w = 0x0205#16)) (hq : asmSeqValue env q = some d) :
    assemble env ⟨m, .seq q, b⟩ = some ⟨w, ⟨d, zeroFrameOperand⟩⟩ := by
  simp only [assemble, hm, Option.bind_some, asmOperandValue, if_neg hw, hq, Option.map_some]

theorem assemble_frame (b : AsmBinding) (f : FrameOperand) (hm : asmOpword m = some w)
    (hw : w = 0x0005#16 ∨ w = 0x0105#16 ∨ w = 0x0205#16) (hq : asmSeqValue env q = some d) :
    assemble env ⟨m, .frame f.address f.command f.information q, b⟩ =
      some ⟨w, ⟨[], ⟨f.address, f.command, f.information, d⟩⟩⟩ := by
  simp only [assemble, hm, Option.bind_some, asmOperandValue, if_pos hw, hq, Option.map_some]

end

/-- Settles O54: `asmMnemonics` has the word the encoder builds, and the operand is the one the encoder puts on the
port. -/
theorem assembledLineIsEncodedInstruction : Obligations.AssembledLineIsEncodedInstruction := by
  intro env b q d f hbound
  have hq := asmSeqValue_of_bound hbound
  exact ⟨assemble_seq b (w := 0x0001#16) (by decide) (by decide) hq,
    assemble_seq b (w := 0x0002#16) (by decide) (by decide) hq,
    assemble_seq b (w := 0x0003#16) (by decide) (by decide) hq,
    assemble_seq b (w := 0x0004#16) (by decide) (by decide) hq,
    assemble_seq b (w := 0x0006#16) (by decide) (by decide) hq,
    assemble_seq b (w := 0x0106#16) (by decide) (by decide) hq,
    assemble_seq b (w := 0x0206#16) (by decide) (by decide) hq,
    assemble_seq b (w := 0x0007#16) (by decide) (by decide) hq,
    rfl,
    assemble_frame b f (w := 0x0005#16) (by decide) (by decide) hq,
    assemble_frame b f (w := 0x0105#16) (by decide) (by decide) hq,
    assemble_frame b f (w := 0x0205#16) (by decide) (by decide) hq⟩

end Sys2Proof.Machine
end

section
/-!
PROOFS. Byte stuffing and the raw frame: UNESCAPE undoes ESCAPE, a stuffed sequence holds no delimiter, and so a raw
frame shows where it ends (41_byte_stuffer.md R67 to R73; 30_encoding.md R48 to R52).
-/

namespace Sys2Proof.Machine

open Sys2Proof.Safety

/-! ### One stuffed byte -/

theorem isReserved_iff {b : Byte} : isReserved b = true ↔ b = esc ∨ b = sof ∨ b = eof := by
  simp [isReserved, or_assoc]

theorem isEscapeCode_iff {c : Byte} : isEscapeCode c = true ↔ c = 0x5D#8 ∨ c = 0x5E#8 ∨ c = 0x5F#8 := by
  simp [isEscapeCode, or_assoc]

/-- R67: flipping bit 5 of a reserved byte gives an escape code. -/
theorem isEscapeCode_of_isReserved {b : Byte} (h : isReserved b = true) : isEscapeCode (b ^^^ 0x20#8) = true := by
  obtain rfl | rfl | rfl := isReserved_iff.mp h <;> decide

theorem ne_of_isEscapeCode {b c : Byte} (hb : isReserved b = true) (hc : isEscapeCode c = true) : c ≠ b := by
  rintro rfl
  obtain rfl | rfl | rfl := isReserved_iff.mp hb <;> exact absurd hc (by decide)

theorem isReserved_esc : isReserved esc = true := by decide

/-- What stuffing puts in front of a sequence: a plain byte, or 0x7D and an escape code (R51, R67). -/
theorem escape_cons_cases (b : Byte) (bs : Bytes) :
    (isReserved b = false ∧ escape (b :: bs) = b :: escape bs) ∨
    (isEscapeCode (b ^^^ 0x20#8) = true ∧ escape (b :: bs) = esc :: (b ^^^ 0x20#8) :: escape bs) := by
  cases h : isReserved b with
  | false => exact .inl ⟨rfl, by simp [escapeByte_plain h]⟩
  | true => exact .inr ⟨isEscapeCode_of_isReserved h, by simp [escapeByte_reserved h]⟩

/-! ### A stuffed sequence -/

theorem unescape_escape (x : Bytes) : unescape (escape x) = x := by
  induction x with
  | nil => rfl
  | cons b bs ih =>
    obtain ⟨hplain, hesc⟩ | ⟨hcode, hesc⟩ := escape_cons_cases b bs
    · have hb : b ≠ esc := by
        rintro rfl
        exact absurd isReserved_esc (by simp [hplain])
      rw [hesc, unescape_plain hb, ih]
    · rw [hesc, unescape_pair hcode, ih, BitVec.xor_assoc, BitVec.xor_self, BitVec.xor_zero]

/-- The only reserved byte in a stuffed sequence is 0x7D. -/
theorem eq_esc_of_mem_escape {b : Byte} {x : Bytes} (hb : isReserved b = true) (h : b ∈ escape x) : b = esc := by
  induction x with
  | nil => simp at h
  | cons c cs ih =>
    obtain ⟨hplain, hesc⟩ | ⟨hcode, hesc⟩ := escape_cons_cases c cs
    · have hbc : b ≠ c := by
        rintro rfl
        simp [hb] at hplain
      rw [hesc, List.mem_cons] at h
      exact ih (h.resolve_left hbc)
    · rw [hesc, List.mem_cons, List.mem_cons] at h
      obtain h | h | h := h
      · exact h
      · exact absurd h.symm (ne_of_isEscapeCode hb hcode)
      · exact ih h

theorem sof_notMem_escape (x : Bytes) : sof ∉ escape x :=
  fun h => absurd (eq_esc_of_mem_escape (by decide) h) (by decide)

theorem eof_notMem_escape (x : Bytes) : eof ∉ escape x :=
  fun h => absurd (eq_esc_of_mem_escape (by decide) h) (by decide)

/-- R73: every 0x7D of a stuffed sequence begins an escape pair. -/
theorem escapeCode_after_esc {x : Bytes} {i : Nat} (h : (escape x)[i]? = some esc) :
    ∃ c, (escape x)[i + 1]? = some c ∧ isEscapeCode c = true := by
  induction x generalizing i with
  | nil => simp at h
  | cons b bs ih =>
    obtain ⟨hplain, hesc⟩ | ⟨hcode, hesc⟩ := escape_cons_cases b bs
    · rw [hesc] at h ⊢
      cases i with
      | zero =>
        obtain rfl : b = esc := by simpa using h
        exact absurd isReserved_esc (by simp [hplain])
      | succ i => exact ih (by simpa using h)
    · rw [hesc] at h ⊢
      match i with
      | 0 => exact ⟨_, rfl, hcode⟩
      | 1 =>
        have hcesc : b ^^^ 0x20#8 = esc := by simpa using h
        exact absurd hcesc (ne_of_isEscapeCode isReserved_esc hcode)
      | i + 2 => exact ih (by simpa using h)

/-! ### FRAME_ENCODE -/

theorem ackLegal_iff (a : Byte) : ackLegal a = true ↔ a ∈ [0x00#8, 0x06#8, 0x15#8] := by
  simp [ackLegal, or_assoc]

theorem frameEncode_of_legal {cfg : Config} {f : FrameOperand} (m : Verification)
    (hcommand : inEnum cfg f.command = true) (hack : ackLegal f.information.ack = true) :
    frameEncode cfg m f = .ok (rawFrame m (frameBody f)) := by
  simp [frameEncode, hcommand, hack]

theorem eq_rawFrame_of_frameEncode {cfg : Config} {m : Verification} {f : FrameOperand} {w : Bytes}
    (h : frameEncode cfg m f = .ok w) : w = rawFrame m (frameBody f) := by
  unfold frameEncode at h
  split_ifs at h
  exact (Except.ok.inj h).symm

theorem exec_frameEncodeInstr_of_ok {m : Verification} {f : FrameOperand} {s : State} {w : Bytes}
    (h : frameEncode s.config m f = .ok w) :
    exec (frameEncodeInstr m f) s = .next { s with responses := s.responses ++ [⟨.ok, .seq w⟩] } := by
  have hanswer : exec (frameEncodeInstr m f) s = answerEncode m f s := by cases m <;> rfl
  rw [hanswer, answerEncode, h]
  rfl

/-- R48 to R50 spelt out byte by byte: `frameBody` and `checksumField` lay the same bytes in the same order. -/
theorem rawFrame_eq_rawFrameBytes (m : Verification) (f : FrameOperand) :
    rawFrame m (frameBody f) = rawFrameBytes f (checksumField m) := rfl

/-- Settles O22: the three modes differ only in the checksum field. -/
theorem frameEncodeAnswersRawFrame : Obligations.FrameEncodeAnswersRawFrame := by
  intro f s hcommand hack
  have answers (m : Verification) : exec (frameEncodeInstr m f) s =
      .next { s with responses := s.responses ++ [⟨.ok, .seq (rawFrameBytes f (checksumField m))⟩] } := by
    rw [← rawFrame_eq_rawFrameBytes]
    exact exec_frameEncodeInstr_of_ok (frameEncode_of_legal m hcommand ((ackLegal_iff _).mpr hack))
  exact ⟨answers .none, answers .mod256, answers .crc16⟩

/-! ### The raw frame -/

@[simp] theorem frameInterior_delimited (x : Bytes) : frameInterior (sof :: (x ++ [eof])) = x := by
  simp [frameInterior]

theorem first_append_of_notMem {x : Bytes} {b : Byte} (h : b ∉ x) (y : Bytes) :
    first (x ++ y) b = (first y b).map (x.length + ·) := by
  induction x with
  | nil => simp
  | cons c cs ih =>
    obtain ⟨hc, hcs⟩ := List.ne_and_not_mem_of_not_mem_cons h
    rw [List.cons_append, first_cons_of_ne hc.symm, ih hcs, Option.map_map]
    congr 1
    funext n
    simp only [Function.comp_apply, List.length_cons]
    omega

theorem first_eof_delimited {x : Bytes} (h : eof ∉ x) :
    first (sof :: (x ++ [eof])) eof = some (x.length + 1) := by
  rw [first_cons_of_ne (by decide), first_append_of_notMem h, first_cons_self]
  rfl

/-- R99's shape is that of any delimited sequence without a 0x7F inside. -/
theorem isToken_delimited {x : Bytes} (h : eof ∉ x) : IsToken (sof :: (x ++ [eof])) := by
  rw [← List.cons_append]
  refine ⟨by simp, rfl, List.getLast?_concat, ?_⟩
  rw [List.dropLast_concat]
  exact List.not_mem_cons_of_ne_of_not_mem (by decide) h

theorem isToken_of_frameEncode {cfg : Config} {m : Verification} {f : FrameOperand} {w : Bytes}
    (h : frameEncode cfg m f = .ok w) : IsToken w := by
  rw [eq_rawFrame_of_frameEncode h]
  exact isToken_delimited (eof_notMem_escape _)

/-- Settles O25: the interior is a stuffed sequence, and unescaping it gives the body and the checksum field back. -/
theorem encodedFrameIsSelfDelimiting : Obligations.EncodedFrameIsSelfDelimiting := by
  intro cfg m f w h
  obtain rfl := eq_rawFrame_of_frameEncode h
  have interior : frameInterior (rawFrame m (frameBody f)) =
      escape (frameBody f ++ checksumField m (frameBody f)) := frameInterior_delimited _
  rw [interior]
  refine ⟨rfl, sof_notMem_escape _, eof_notMem_escape _, fun i hi => ?_, ?_, ?_⟩
  · obtain ⟨c, hc, hcode⟩ := escapeCode_after_esc hi
    rw [hc]
    simpa using isEscapeCode_iff.mp hcode
  · rw [rawFrame, first_eof_delimited (eof_notMem_escape _)]
    simp
  · rw [unescape_escape, List.length_append, frameBody_length]
    omega

end Sys2Proof.Machine
end

section
/-!
PROOFS. Draining: what TOK_NEXT does with a token at the head of B and with a B that holds no whole token, the tokens
that draining takes out of B, and the host loops of R55 (43_tokenizer.md R96 to R100).
-/

namespace Sys2Proof.Machine

open Sys2Proof.Safety

/-! ### A B with nothing left to take -/

/-- What R100 says of B after a TOK_NEXT without a token: no 0x7F, and no byte before the first 0x7E. -/
def Drained (b : Bytes) : Prop := eof ∉ b ∧ (sof ∉ b ∨ b.head? = some sof)

theorem drained_nil : Drained [] := ⟨List.not_mem_nil, .inl List.not_mem_nil⟩

theorem Drained.tokNext_eq {b : Bytes} (h : Drained b) : tokNext b = (none, b) := by
  obtain ⟨hnoeof, hstart⟩ := h
  have hf : first b eof = none := first_eq_none_iff.mpr hnoeof
  cases hs : first b sof with
  | none => exact tokNextLoop_neither b.length hs hf
  | some s =>
    obtain ⟨hsof, hleast⟩ := first_eq_some_iff.mp hs
    have hhead : b[0]? = some sof := by
      rw [← List.head?_eq_getElem?]
      exact hstart.resolve_left (not_not.mpr (List.mem_of_getElem? hsof))
    obtain rfl : s = 0 := by
      by_contra hpos
      exact hleast 0 (by omega) hhead
    exact tokNextLoop_start b.length hs hf

/-- With more rounds than B has bytes, a TOK_NEXT without a token stops in case N or S. -/
theorem drained_of_tokNextLoop_none {n : Nat} {b : Bytes} (hn : b.length < n) (h : (tokNextLoop n b).1 = none) :
    Drained (tokNextLoop n b).2 := by
  induction n generalizing b with
  | zero => omega
  | succ n ih =>
    have looped {f : Nat} (hf : first b eof = some f) (h : (tokNextLoop n (b.drop (f + 1))).1 = none) :
        Drained (tokNextLoop n (b.drop (f + 1))).2 := by
      have hlt : f < b.length := (List.getElem?_eq_some_iff.mp (first_eq_some_iff.mp hf).1).1
      exact ih (by rw [List.length_drop]; omega) h
    cases hs : first b sof with
    | none =>
      cases hf : first b eof with
      | none =>
        rw [tokNextLoop_neither n hs hf]
        exact ⟨first_eq_none_iff.mp hf, .inl (first_eq_none_iff.mp hs)⟩
      | some f =>
        rw [tokNextLoop_end n hs hf] at h ⊢
        exact looped hf h
    | some s =>
      cases hf : first b eof with
      | none =>
        rw [tokNextLoop_start n hs hf]
        refine ⟨fun hmem => first_eq_none_iff.mp hf (List.mem_of_mem_drop hmem), .inr ?_⟩
        rw [List.head?_drop]
        exact (first_eq_some_iff.mp hs).1
      | some f =>
        by_cases hsf : s < f
        · rw [tokNextLoop_frame n hs hf hsf] at h
          cases h
        · rw [tokNextLoop_orphan n hs hf hsf] at h ⊢
          exact looped hf h

theorem drained_of_tokNext_none {b r : Bytes} (h : tokNext b = (none, r)) : Drained r := by
  have hdrained := drained_of_tokNextLoop_none (Nat.lt_succ_self b.length) (congrArg Prod.fst h)
  rwa [← tokNext, h] at hdrained

/-! ### A token at the head of B -/

theorem isToken_eq_delimited {t : Bytes} (h : IsToken t) : ∃ x, eof ∉ x ∧ t = sof :: (x ++ [eof]) := by
  obtain ⟨hlen, hhead, hlast, hnoeof⟩ := h
  obtain ⟨y, rfl⟩ : ∃ y, t = y ++ [eof] := List.getLast?_eq_some_iff.mp hlast
  rw [List.dropLast_concat] at hnoeof
  cases y with
  | nil => simp at hlen
  | cons c x =>
    obtain rfl : c = sof := by simpa using hhead
    exact ⟨x, List.not_mem_of_not_mem_cons hnoeof, rfl⟩

/-- Case T of R96 at the head of B. -/
theorem tokNext_append_of_isToken {t : Bytes} (h : IsToken t) (r : Bytes) : tokNext (t ++ r) = (some t, r) := by
  obtain ⟨x, hx, rfl⟩ := isToken_eq_delimited h
  have hs : first (sof :: (x ++ [eof]) ++ r) sof = some 0 := first_cons_self sof _
  have hf : first (sof :: (x ++ [eof]) ++ r) eof = some (x.length + 1) := by
    rw [List.cons_append, List.append_assoc, first_cons_of_ne (by decide), first_append_of_notMem hx,
      List.cons_append, first_cons_self]
    rfl
  have hlen : (sof :: (x ++ [eof])).length = x.length + 1 + 1 := by simp
  calc tokNext (sof :: (x ++ [eof]) ++ r)
      = (some (slice (sof :: (x ++ [eof]) ++ r) 0 (x.length + 1)),
          (sof :: (x ++ [eof]) ++ r).drop (x.length + 1 + 1)) := tokNextLoop_frame _ hs hf (Nat.succ_pos _)
    _ = (some (sof :: (x ++ [eof])), r) := by
      rw [slice, List.drop_zero, List.take_left' hlen, List.drop_left' hlen]

/-! ### The tokens of B -/

/-- Taking tokens from `b` until TOK_NEXT gives none takes `ts`, in order, and leaves `r` (R55). -/
inductive Drains : Bytes → List Bytes → Bytes → Prop where
  | stop {b r : Bytes} (h : tokNext b = (none, r)) : Drains b [] r
  | take {b b' r t : Bytes} {ts : List Bytes} (h : tokNext b = (some t, b')) (rest : Drains b' ts r) :
      Drains b (t :: ts) r

theorem Drains.drained {b r : Bytes} {ts : List Bytes} (h : Drains b ts r) : Drained r := by
  induction h with
  | stop h => exact drained_of_tokNext_none h
  | take _ _ ih => exact ih

theorem Drained.drains {b : Bytes} (h : Drained b) : Drains b [] b := .stop h.tokNext_eq

/-- A token takes at least one byte out of B (two, by R99). -/
theorem tokNext_length_lt {b t b' : Bytes} (h : tokNext b = (some t, b')) : b'.length < b.length := by
  obtain ⟨dropped, hb, htoken⟩ := tokNext_cutsInto b
  rw [h] at hb htoken
  obtain ⟨hlen, -⟩ := htoken t rfl
  have := congrArg List.length hb
  simp only [List.length_append, Option.getD_some] at this
  omega

theorem exists_drains (b : Bytes) : ∃ ts r, Drains b ts r := by
  induction hn : b.length using Nat.strong_induction_on generalizing b with
  | _ n ih =>
    match h : tokNext b with
    | (none, r) => exact ⟨[], r, .stop h⟩
    | (some t, b') =>
      obtain ⟨ts, r, hrest⟩ := ih b'.length (hn ▸ tokNext_length_lt h) b' rfl
      exact ⟨t :: ts, r, .take h hrest⟩

theorem Drains.length_le {b r : Bytes} {ts : List Bytes} (h : Drains b ts r) : ts.length ≤ b.length := by
  induction h with
  | stop => exact Nat.zero_le _
  | take h _ ih =>
    have := tokNext_length_lt h
    rw [List.length_cons]
    omega

theorem Drains.drainLoop_eq {b r : Bytes} {ts : List Bytes} (h : Drains b ts r) {n : Nat} (hn : ts.length < n) :
    drainLoop n b = (ts, r) := by
  induction h generalizing n with
  | stop h =>
    obtain ⟨n, rfl⟩ := Nat.exists_eq_add_one_of_ne_zero (Nat.ne_zero_of_lt hn)
    rw [drainLoop, h]
  | take h _ ih =>
    obtain ⟨n, rfl⟩ := Nat.exists_eq_add_one_of_ne_zero (Nat.ne_zero_of_lt hn)
    simp only [drainLoop, h, ih (Nat.lt_of_succ_lt_succ hn)]

theorem Drains.drain_eq {b r : Bytes} {ts : List Bytes} (h : Drains b ts r) : drain b = (ts, r) :=
  h.drainLoop_eq (Nat.lt_succ_of_le h.length_le)

/-! ### The host's loops -/

theorem step_present (q : Request) (s : State) : step (s.present q) = serve q s :=
  acceptNext_request (s := s.present q) rfl

/-- The host reads the response of its request, whatever was answered before. -/
theorem issue_encode {i : Instr} {s s' : State} {x : Response} (h : exec i s = .next (s'.respond x)) :
    issue (encode i) s = some (x, s'.respond x) := by
  simp [issue, step_present, serve_of_decode_ok (decode_encode i), h]

theorem issue_tokNext {s : State} {o : Option Bytes} {b : Bytes} (h : tokNext s.buffer = (o, b)) :
    issue (encode .tokNext) s = some (returned (tokenResult o), (s.setBuffer b).ret (tokenResult o)) := by
  apply issue_encode
  calc exec .tokNext s
      = .next ((s.setBuffer (tokNext s.buffer).2).ret (tokenResult (tokNext s.buffer).1)) := rfl
    _ = .next ((s.setBuffer b).ret (tokenResult o)) := by rw [h]

theorem issue_tokAppend {s : State} {d : Bytes} (h : withinCap s.config.tokCap (s.buffer ++ d).length = true) :
    issue (encode (.tokAppend d)) s = some (returned .none, (s.setBuffer (s.buffer ++ d)).ret .none) := by
  apply issue_encode
  rw [List.length_append] at h
  simp [exec, execTokAppend, tokAppend, h, Except.map, answerBuffer, State.ret]

/-- The state `t` is `s` with the buffer `r`, but for the responses given. -/
structure LeavesBuffer (s : State) (r : Bytes) (t : State) : Prop where
  buffer_eq : t.buffer = r
  config_eq : t.config = s.config
  inputs_eq : t.inputs = s.inputs

/-- `tok.drain` on the machine takes what draining takes, given a round for each token and one more (R55). -/
theorem Drains.issueDrain_eq {s : State} {r : Bytes} {ts : List Bytes} (h : Drains s.buffer ts r) {n : Nat}
    (hn : ts.length < n) : ∃ t, issueDrain n s = some (ts, t) ∧ LeavesBuffer s r t := by
  generalize hb : s.buffer = b at h
  induction h generalizing n s with
  | @stop _ r h =>
    subst hb
    obtain ⟨n, rfl⟩ := Nat.exists_eq_add_one_of_ne_zero (Nat.ne_zero_of_lt hn)
    refine ⟨(s.setBuffer r).ret (tokenResult none), ?_, rfl, rfl, rfl⟩
    rw [issueDrain, issue_tokNext h]
    rfl
  | @take _ b' _ t _ h _ ih =>
    subst hb
    obtain ⟨n, rfl⟩ := Nat.exists_eq_add_one_of_ne_zero (Nat.ne_zero_of_lt hn)
    obtain ⟨u, hdrain, hbuffer, hconfig, hinputs⟩ :=
      ih (s := (s.setBuffer b').ret (tokenResult (some t))) (Nat.lt_of_succ_lt_succ hn) rfl
    refine ⟨u, ?_, hbuffer, hconfig, hinputs⟩
    rw [issueDrain, issue_tokNext h]
    exact congrArg (Option.map _) hdrain

/-- Settles O55: each token takes at least a byte, so `|B| + 1` rounds are enough. -/
theorem drainTakesEveryToken : Obligations.DrainTakesEveryToken := by
  intro s
  obtain ⟨ts, r, h⟩ := exists_drains s.buffer
  obtain ⟨t, hdrain, hbuffer, hconfig, hinputs⟩ := h.issueDrain_eq (Nat.lt_succ_of_le h.length_le)
  subst hbuffer
  rw [h.drain_eq]
  exact ⟨t, hdrain, rfl, hconfig, hinputs, h.drained.tokNext_eq⟩

/-- `tok.feed` where the bytes fit in B: what draining takes out of B with the bytes appended (R55, R95). -/
theorem Drains.issueFeed_eq {s : State} {d r : Bytes} {ts : List Bytes} (h : Drains (s.buffer ++ d) ts r)
    (hfits : withinCap s.config.tokCap (s.buffer ++ d).length = true) :
    ∃ t, issueFeed d s = some (ts, t) ∧ LeavesBuffer s r t := by
  obtain ⟨t, hdrain, hbuffer, hconfig, hinputs⟩ :=
    Drains.issueDrain_eq (s := (s.setBuffer (s.buffer ++ d)).ret .none) h (Nat.lt_succ_of_le h.length_le)
  refine ⟨t, ?_, hbuffer, hconfig, hinputs⟩
  rw [issueFeed, issue_tokAppend hfits, Option.bind_some]
  exact hdrain

end Sys2Proof.Machine
end

section
/-!
PROOFS. A stream of whole tokens, fed in chunks of any size, comes out as those tokens (43_tokenizer.md R102, R103).
-/

namespace Sys2Proof.Machine

open Sys2Proof.Safety

theorem eof_mem_of_isToken {t : Bytes} (h : IsToken t) : eof ∈ t := by
  obtain ⟨x, -, rfl⟩ := isToken_eq_delimited h
  simp

/-- A B that breaks off inside a token stays as it is (case S of R96). -/
theorem drained_of_isToken_append {b c : Bytes} (h : IsToken (b ++ c)) (hc : c ≠ []) : Drained b := by
  obtain ⟨-, hhead, -, hnoeof⟩ := h
  rw [List.dropLast_append_of_ne_nil hc] at hnoeof
  refine ⟨fun hmem => hnoeof (List.mem_append_left _ hmem), ?_⟩
  cases b with
  | nil => exact .inl List.not_mem_nil
  | cons y ys => exact .inr hhead

/-- Cutting a stream of tokens after `b`: draining `b` takes the tokens that are whole in it, and the rest of the stream
begins with the token it breaks off in. -/
theorem exists_drains_of_flatten {raw : List Bytes} (hraw : ∀ w ∈ raw, IsToken w) {b c : Bytes}
    (hstream : b ++ c = raw.flatten) :
    ∃ taken left r, raw = taken ++ left ∧ Drains b taken r ∧ r ++ c = left.flatten := by
  induction raw generalizing b with
  | nil =>
    obtain ⟨rfl, rfl⟩ := List.append_eq_nil_iff.mp hstream
    exact ⟨[], [], [], rfl, drained_nil.drains, rfl⟩
  | cons w ws ih =>
    obtain ⟨hw, hws⟩ := List.forall_mem_cons.mp hraw
    by_cases hwhole : w <+: b
    · obtain ⟨b', rfl⟩ := hwhole
      rw [List.flatten_cons, List.append_assoc, List.append_cancel_left_eq] at hstream
      obtain ⟨taken, left, r, rfl, hdrains, hrest⟩ := ih hws hstream
      exact ⟨w :: taken, left, r, rfl, .take (tokNext_append_of_isToken hw b') hdrains, hrest⟩
    · obtain ⟨c', rfl, -⟩ | ⟨b', rfl, -⟩ := List.append_eq_append_iff.mp hstream
      · have hc' : c' ≠ [] := by
          rintro rfl
          simp at hwhole
        exact ⟨[], (b ++ c') :: ws, b, rfl, (drained_of_isToken_append hw hc').drains, hstream⟩
      · exact absurd (List.prefix_append w b') hwhole

/-- What is still in B when the stream has ended is no part of a token. -/
theorem eq_nil_of_drained_flatten {left : List Bytes} (hleft : ∀ w ∈ left, IsToken w) (h : Drained left.flatten) :
    left = [] := by
  obtain ⟨hnoeof, -⟩ := h
  cases left with
  | nil => rfl
  | cons w ws =>
    have hmem : eof ∈ w := eof_mem_of_isToken (hleft w List.mem_cons_self)
    exact absurd (List.mem_append_left _ hmem) hnoeof

/-- What is in B, then the chunks still to come, is always a stream of the tokens not yet collected. -/
theorem issueFeedAll_of_tokens {s : State} {raw chunks : List Bytes} (hcap : s.config.tokCap = .unbounded)
    (hraw : ∀ w ∈ raw, IsToken w) (hdrained : Drained s.buffer)
    (hstream : s.buffer ++ chunks.flatten = raw.flatten) :
    ∃ t, issueFeedAll chunks s = some (raw, t) ∧ t.buffer = [] ∧ t.config = s.config := by
  induction chunks generalizing s raw with
  | nil =>
    rw [List.flatten_nil, List.append_nil] at hstream
    obtain rfl := eq_nil_of_drained_flatten hraw (hstream ▸ hdrained)
    exact ⟨s, rfl, hstream, rfl⟩
  | cons d ds ih =>
    rw [List.flatten_cons, ← List.append_assoc] at hstream
    obtain ⟨taken, left, r, rfl, hdrains, hrest⟩ := exists_drains_of_flatten hraw hstream
    obtain ⟨t, hfeed, hbuffer, hconfig, -⟩ := hdrains.issueFeed_eq (by rw [hcap]; rfl)
    subst hbuffer
    obtain ⟨u, hall, hempty, hu⟩ := ih (hconfig ▸ hcap) (fun w hw => hraw w (List.mem_append_right _ hw))
      hdrains.drained hrest
    refine ⟨u, ?_, hempty, hu.trans hconfig⟩
    rw [issueFeedAll, hfeed, Option.bind_some, hall, Option.map_some]

/-- Settles O44: an encoded frame is a token, so the stream is cut where the frames end. -/
theorem streamOfEncodedFramesIsRecovered : Obligations.StreamOfEncodedFramesIsRecovered := by
  intro s frames raw chunks hcap hbuffer hencoded hchunks
  have hraw : ∀ w ∈ raw, IsToken w := by
    intro w hw
    have hmem : Except.ok w ∈ frames.map (fun f => frameEncode s.config f.1 f.2) :=
      hencoded ▸ List.mem_map_of_mem hw
    obtain ⟨f, -, hf⟩ := List.mem_map.mp hmem
    exact isToken_of_frameEncode hf
  apply issueFeedAll_of_tokens hcap hraw
  · rw [hbuffer]
    exact drained_nil
  · rw [hbuffer, List.nil_append, hchunks]

end Sys2Proof.Machine
end

section
/-!
PROOFS. The checksum engine: the byte-wise CRC register is a bit-serial one, each of its updates is injective, and its own CRC
takes it to a constant; MOD256 is a sum (40_checksum.md R57 to R66).
-/

namespace Sys2Proof.Machine

/-! ### The CRC register, one bit at a time -/

/-- R58: the shift consumes the low bit of what is mixed into the register, and the other bits move down with it. -/
theorem crcShift_xor (r v : Word) : crcShift (r ^^^ v) = crcBit r (v.getLsbD 0) ^^^ (v >>> 1) := by
  rw [crcShift, crcBit, BitVec.getLsbD_xor, BitVec.ushiftRight_xor_distrib]
  split
  · rw [BitVec.xor_assoc, BitVec.xor_comm (v >>> 1), ← BitVec.xor_assoc]
  · rfl

/-- The `n` low bits of a word, least significant first. -/
def lowBits (n : Nat) (v : Word) : List Bool := (List.range n).map fun k => v.getLsbD k

theorem lowBits_succ (n : Nat) (v : Word) : lowBits (n + 1) v = v.getLsbD 0 :: lowBits n (v >>> 1) := by
  simp [lowBits, List.range_succ_eq_map, BitVec.getLsbD_ushiftRight, Nat.add_comm]

/-- `n` shifts of a register with `v` mixed into it consume the `n` low bits of `v` and leave the others mixed in. -/
theorem crcShifts_xor (n : Nat) (r v : Word) :
    crcShifts n (r ^^^ v) = (lowBits n v).foldl crcBit r ^^^ (v >>> n) := by
  induction n generalizing r v with
  | zero => rfl
  | succ n ih =>
    rw [crcShifts, crcShift_xor, ih, lowBits_succ, List.foldl_cons, Nat.add_comm, BitVec.shiftRight_add]

theorem lowBits_eight (v : Word) : lowBits 8 v = bitsLowFirst (v.extractLsb' 0 8) := by
  refine List.map_congr_left fun k hk => ?_
  simp [List.mem_range.mp hk]

theorem ushiftRight_eight_eq (v : Word) : v >>> 8 = (v.extractLsb' 8 8).setWidth 16 := by
  refine BitVec.eq_of_toNat_eq ?_
  rw [BitVec.toNat_ushiftRight, BitVec.toNat_setWidth, BitVec.extractLsb'_toNat, Nat.shiftRight_eq_div_pow]
  omega

theorem crcShifts_eight_xor (r v : Word) :
    crcShifts 8 (r ^^^ v) = (bitsLowFirst (v.extractLsb' 0 8)).foldl crcBit r ^^^ (v.extractLsb' 8 8).setWidth 16 := by
  rw [crcShifts_xor, lowBits_eight, ushiftRight_eight_eq]

theorem crcByte_eq_foldl_crcBit (r : Word) (b : Byte) : crcByte r b = (bitsLowFirst b).foldl crcBit r := by
  have low : (b.setWidth 16).extractLsb' 0 8 = b := by
    rw [BitVec.extractLsb'_setWidth_of_le (by decide), BitVec.extractLsb'_eq_self]
  have high : (b.setWidth 16).extractLsb' 8 8 = 0#8 := by ext; simp
  rw [crcByte, crcShifts_eight_xor, low, high]
  simp

theorem crcFold_eq_foldl_crcBit (r : Word) (d : Bytes) : crcFold r d = (d.flatMap bitsLowFirst).foldl crcBit r := by
  induction d generalizing r with
  | nil => rfl
  | cons b d ih => rw [crcFold_cons, List.flatMap_cons, List.foldl_append, ih, crcByte_eq_foldl_crcBit]

theorem exec_crc16X25 (d : Bytes) (s : State) :
    exec (.crc16X25 d) s = .next { s with responses := s.responses ++ [⟨.ok, .word (crc16X25 d)⟩] } := rfl

/-- Settles O11: the bytes enter the register bit by bit, and complementing is the XOR with ones. -/
theorem crc16X25AnswersBitSerialCrc : Obligations.Crc16X25AnswersBitSerialCrc := by
  intro d s
  have complement : crc16X25 d = crcFold 0xFFFF#16 d ^^^ 0xFFFF#16 :=
    BitVec.not_def.trans (BitVec.xor_comm _ _)
  rw [exec_crc16X25, complement, crcFold_eq_foldl_crcBit]

/-! ### Each update of the CRC register is injective -/

/-- The polynomial has bit 15 and the shifted register has not, so bit 15 tells which branch was taken. -/
theorem getLsbD_crcShift_top (r : Word) : (crcShift r).getLsbD 15 = r.getLsbD 0 := by
  unfold crcShift
  split
  next h => rw [h]; simp
  next h => rw [Bool.eq_false_iff.mpr h]; simp

theorem eq_of_getLsbD_zero_of_ushiftRight {r t : Word} (low : r.getLsbD 0 = t.getLsbD 0) (rest : r >>> 1 = t >>> 1) :
    r = t := by
  refine BitVec.eq_of_getLsbD_eq fun k _ => ?_
  cases k with
  | zero => exact low
  | succ k =>
    have bit := congrArg (BitVec.getLsbD · k) rest
    simpa [BitVec.getLsbD_ushiftRight, Nat.add_comm] using bit

theorem crcShift_injective : Function.Injective crcShift := by
  intro r t h
  have low : r.getLsbD 0 = t.getLsbD 0 := by
    rw [← getLsbD_crcShift_top r, h, getLsbD_crcShift_top]
  have rest : r >>> 1 = t >>> 1 := by
    unfold crcShift at h
    rw [low] at h
    split at h
    · exact (BitVec.xor_left_inj _).mp h
    · exact h
  exact eq_of_getLsbD_zero_of_ushiftRight low rest

theorem crcShifts_injective (n : Nat) : Function.Injective (crcShifts n) := by
  induction n with
  | zero => exact fun _ _ h => h
  | succ n ih => exact ih.comp crcShift_injective

theorem crcByte_left_injective (b : Byte) : Function.Injective (crcByte · b) :=
  fun _ _ h => (BitVec.xor_left_inj _).mp (crcShifts_injective 8 h)

theorem crcByte_right_injective (r : Word) : Function.Injective (crcByte r) := by
  intro b c h
  have wide : b.setWidth 16 = c.setWidth 16 := (BitVec.xor_right_inj _).mp (crcShifts_injective 8 h)
  simpa using congrArg (BitVec.setWidth 8) wide

theorem crcFold_left_injective (d : Bytes) : Function.Injective (crcFold · d) := by
  induction d with
  | nil => exact fun _ _ h => h
  | cons b d ih => exact ih.comp (crcByte_left_injective b)

/-- Settles O12: the register is the same before the byte, differs after it, and no later byte makes it the same again. -/
theorem crcDetectsOneChangedByte : Obligations.CrcDetectsOneChangedByte := by
  intro pre post b c hne h
  have fold : crcFold 0xFFFF#16 (pre ++ b :: post) = crcFold 0xFFFF#16 (pre ++ c :: post) := BitVec.not_inj.mp h
  rw [crcFold_append, crcFold_append, crcFold_cons, crcFold_cons] at fold
  exact hne (crcByte_right_injective _ (crcFold_left_injective post fold))

/-! ### The residue -/

theorem crcShifts_add (m n : Nat) (r : Word) : crcShifts (m + n) r = crcShifts n (crcShifts m r) := by
  induction m generalizing r with
  | zero => rw [Nat.zero_add, crcShifts]
  | succ m ih => rw [Nat.succ_add, crcShifts, crcShifts, ih]

/-- The two bytes of a word, low byte first, act on the register as the whole word mixed into it at once. -/
theorem crcFold_le16 (r v : Word) : crcFold r (le16 v) = crcShifts 16 (r ^^^ v) := by
  rw [crcShifts_add 8 8, crcShifts_eight_xor, ← crcByte_eq_foldl_crcBit]
  rfl

theorem xor_not_self (r : Word) : r ^^^ ~~~ r = BitVec.allOnes 16 := by
  rw [← BitVec.xor_allOnes, ← BitVec.xor_assoc, BitVec.xor_self, BitVec.zero_xor]

theorem crcShifts_sixteen_allOnes : crcShifts 16 (BitVec.allOnes 16) = 0xF0B8#16 := by
  simp [crcShifts, crcShift]

/-- Settles O13: a register and its complement mix to ones, whatever the register is. -/
theorem crcResidueIsConstant : Obligations.CrcResidueIsConstant := by
  intro d
  rw [crcFold_append, crcFold_le16, crc16X25, xor_not_self, crcShifts_sixteen_allOnes]

/-! ### MOD256 -/

theorem mod256_eq_sum (d : Bytes) : mod256 d = d.sum := List.sum_eq_foldl.symm

theorem toNat_sum (d : Bytes) : d.sum.toNat = (d.map BitVec.toNat).sum % 256 := by
  induction d with
  | nil => rfl
  | cons b d ih => rw [List.sum_cons, BitVec.toNat_add, ih, List.map_cons, List.sum_cons, Nat.add_mod_mod]

theorem exec_mod256 (d : Bytes) (s : State) :
    exec (.mod256 d) s = .next { s with responses := s.responses ++ [⟨.ok, .byte (mod256 d)⟩] } := rfl

/-- Settles O14: wrapping at each byte is the sum modulo 256. -/
theorem mod256AnswersByteSum : Obligations.Mod256AnswersByteSum := by
  intro d s
  refine ⟨mod256 d, exec_mod256 d s, ?_⟩
  rw [mod256_eq_sum, toNat_sum]

/-- Settles O15: MOD256 is the sum of a list of wrapping bytes. -/
theorem mod256OfConcatenation : Obligations.Mod256OfConcatenation := by
  intro x y
  rw [mod256_eq_sum, mod256_eq_sum, mod256_eq_sum, List.sum_append]

end Sys2Proof.Machine
end

section
/-!
PROOFS. ESCAPE and UNESCAPE: the forward passes of the model against the byte map, the three whole-buffer replacements,
the index loop and the backward in-place scan (41_byte_stuffer.md R67 to R73).
-/

namespace Sys2Proof.Machine

/-! ### ESCAPE as a byte map -/

theorem exec_escape (d : Bytes) (s : State) :
    exec (.escape d) s = .next { s with responses := s.responses ++ [⟨.ok, .seq (escape d)⟩] } := rfl

theorem isReserved_iff_mem {b : Byte} : isReserved b = true ↔ b ∈ [0x7D#8, 0x7E#8, 0x7F#8] := by
  simp [isReserved_iff]

/-- R67's escape code of one byte, with the reserved set written out. -/
theorem escapeByte_eq_ite (b : Byte) :
    escapeByte b = if b ∈ [0x7D#8, 0x7E#8, 0x7F#8] then [0x7D#8, b ^^^ 0x20#8] else [b] := by
  simp only [escapeByte, isReserved_iff_mem]

theorem escape_eq_flatMap (d : Bytes) : escape d = d.flatMap escapeByte := by
  induction d with
  | nil => rfl
  | cons b bs ih => rw [escape_cons, List.flatMap_cons, ih]

/-- R68's length law: each reserved byte is stuffed to two bytes, every other to one. -/
theorem escape_length (d : Bytes) : (escape d).length = d.length + d.countP isReserved := by
  induction d with
  | nil => rfl
  | cons b bs ih =>
    rw [escape_cons, List.length_append, List.length_cons, ih]
    cases h : isReserved b with
    | false =>
      rw [escapeByte_plain h, List.countP_cons_of_neg (by simp [h]), List.length_singleton]
      omega
    | true =>
      rw [escapeByte_reserved h, List.countP_cons_of_pos h, List.length_cons, List.length_singleton]
      omega

/-- Settles O16: the forward pass maps each byte on its own, and each reserved byte adds one to the length. -/
theorem escapeAnswersByteMap : Obligations.EscapeAnswersByteMap := by
  intro d s
  refine ⟨escape d, exec_escape d s, ?_, ?_⟩
  · rw [escape_eq_flatMap, funext escapeByte_eq_ite]
  · simp only [escape_length, ← isReserved_iff_mem, Bool.decide_eq_true]

/-! ### ESCAPE as three replacements -/

@[simp] theorem replaceAll_append (b : Byte) (x y : Bytes) :
    replaceAll b (x ++ y) = replaceAll b x ++ replaceAll b y := List.flatMap_append

theorem replaceAll_singleton_of_ne {b c : Byte} (h : c ≠ b) : replaceAll b [c] = [c] := by
  simp [replaceAll, h]

theorem escapeByReplacement_append (x y : Bytes) :
    escapeByReplacement (x ++ y) = escapeByReplacement x ++ escapeByReplacement y := by
  simp [escapeByReplacement]

/-- On one byte the order matters: 0x7D is replaced first, so no replacement meets a 0x7D that an earlier one put in. -/
theorem escapeByReplacement_singleton (b : Byte) : escapeByReplacement [b] = escapeByte b := by
  by_cases h : isReserved b = true
  · obtain rfl | rfl | rfl := isReserved_iff.mp h <;> decide
  · obtain ⟨hesc, hsof, heof⟩ : b ≠ esc ∧ b ≠ sof ∧ b ≠ eof := by simpa [isReserved_iff] using h
    rw [escapeByte_plain (Bool.eq_false_iff.mpr h), escapeByReplacement, replaceAll_singleton_of_ne hesc,
      replaceAll_singleton_of_ne hsof, replaceAll_singleton_of_ne heof]

theorem escape_eq_escapeByReplacement (d : Bytes) : escape d = escapeByReplacement d := by
  induction d with
  | nil => rfl
  | cons b bs ih =>
    rw [escape_cons, ih, ← escapeByReplacement_singleton, ← escapeByReplacement_append, List.singleton_append]

/-- Settles O17: a whole-buffer replacement acts on each byte on its own, so one byte decides. -/
theorem escapeIsThreeReplacements : Obligations.EscapeIsThreeReplacements :=
  ⟨escape_eq_escapeByReplacement, by decide, by decide⟩

/-! ### Where a pair stands -/

theorem pairAt_append (x y : Bytes) (i : Nat) : pairAt (x ++ y) (x.length + i) = pairAt y i := by
  simp [pairAt, List.getElem?_append_right, Nat.add_assoc]

theorem pairAt_cons_succ (b : Byte) (d : Bytes) (i : Nat) : pairAt (b :: d) (i + 1) = pairAt d i := by
  simp [pairAt]

theorem pairAt_zero_iff {b c : Byte} {bs : Bytes} :
    pairAt (b :: c :: bs) 0 = true ↔ b = esc ∧ isEscapeCode c = true := by
  simp [pairAt, isEscapeCode, or_assoc]

theorem pairAt_singleton (b : Byte) : pairAt [b] 0 = false := by
  simp [pairAt]

/-! ### UNESCAPE by index -/

theorem exec_unescape (d : Bytes) (s : State) :
    exec (.unescape d) s = .next { s with responses := s.responses ++ [⟨.ok, .seq (unescape d)⟩] } := rfl

/-- A round of the loop of R70 that stands on a pair. -/
theorem unescapeAt_pair {pre bs : Bytes} {b c : Byte} (h : pairAt (b :: c :: bs) 0 = true) (n : Nat) (u : Bytes) :
    unescapeAt (pre ++ b :: c :: bs) (n + 1) pre.length u =
      unescapeAt (pre ++ b :: c :: bs) n (pre.length + 2) (u ++ [c ^^^ 0x20#8]) := by
  have hpair := pairAt_append pre (b :: c :: bs) 0
  rw [Nat.add_zero, h] at hpair
  simp [unescapeAt, hpair]

/-- A round of the loop of R70 that stands on any other byte. -/
theorem unescapeAt_copy {pre bs : Bytes} {b : Byte} (h : pairAt (b :: bs) 0 = false) (n : Nat) (u : Bytes) :
    unescapeAt (pre ++ b :: bs) (n + 1) pre.length u =
      unescapeAt (pre ++ b :: bs) n (pre.length + 1) (u ++ [b]) := by
  have hpair := pairAt_append pre (b :: bs) 0
  rw [Nat.add_zero, h] at hpair
  simp [unescapeAt, hpair]

theorem unescapeAt_length (d : Bytes) (n : Nat) (u : Bytes) : unescapeAt d n d.length u = u := by
  cases n <;> simp [unescapeAt]

/-- With the bytes before the index read, the loop puts out what UNESCAPE makes of the bytes that are left. -/
theorem unescapeAt_append (rest : Bytes) {pre : Bytes} {n : Nat} (u : Bytes) (hn : rest.length ≤ n) :
    unescapeAt (pre ++ rest) n pre.length u = u ++ unescape rest := by
  induction rest using unescape.induct generalizing pre n u with
  | case1 => simp [unescape, unescapeAt_length]
  | case2 b =>
    obtain ⟨n, rfl⟩ := Nat.exists_eq_succ_of_ne_zero (Nat.ne_zero_of_lt hn)
    have stop := unescapeAt_length (pre ++ [b]) n (u ++ [b])
    rw [unescapeAt_copy (pairAt_singleton b)]
    simpa [unescape] using stop
  | case3 b c bs hpair ih =>
    obtain ⟨n, rfl⟩ := Nat.exists_eq_succ_of_ne_zero (Nat.ne_zero_of_lt hn)
    have left : bs.length ≤ n := Nat.le_of_succ_le (Nat.le_of_succ_le_succ hn)
    have loop := ih (pre := pre ++ [b, c]) (u ++ [c ^^^ 0x20#8]) left
    rw [unescapeAt_pair (pairAt_zero_iff.mpr hpair)]
    simpa [unescape, hpair] using loop
  | case4 b c bs hpair ih =>
    obtain ⟨n, rfl⟩ := Nat.exists_eq_succ_of_ne_zero (Nat.ne_zero_of_lt hn)
    have left : (c :: bs).length ≤ n := Nat.le_of_succ_le_succ hn
    have loop := ih (pre := pre ++ [b]) (u ++ [b]) left
    rw [unescapeAt_copy (Bool.eq_false_iff.mpr (mt pairAt_zero_iff.mp hpair))]
    simpa [unescape, hpair] using loop

theorem unescapeByIndex_eq_unescape (d : Bytes) : unescapeByIndex d = unescape d :=
  unescapeAt_append (pre := []) d [] le_rfl

/-- Settles O18: the loop, started with nothing read. -/
theorem unescapeAnswersIndexLoop : Obligations.UnescapeAnswersIndexLoop := by
  intro d s
  rw [unescapeByIndex_eq_unescape, exec_unescape]

/-! ### UNESCAPE backward -/

/-- One round of the backward scan (R71): a pair at `i` is replaced in place. -/
def replacePairAt (d : Bytes) (i : Nat) : Bytes :=
  if pairAt d i then (d.set i (d.getD (i + 1) 0#8 ^^^ 0x20#8)).eraseIdx (i + 1) else d

theorem unescapeBackAt_succ (n : Nat) (d : Bytes) :
    unescapeBackAt (n + 1) d = unescapeBackAt n (replacePairAt d n) := rfl

theorem replacePairAt_cons_succ (b : Byte) (d : Bytes) (i : Nat) :
    replacePairAt (b :: d) (i + 1) = b :: replacePairAt d i := by
  simp only [replacePairAt, pairAt_cons_succ]
  split <;> rfl

theorem replacePairAt_zero_pair {c : Byte} (h : isEscapeCode c = true) (bs : Bytes) :
    replacePairAt (esc :: c :: bs) 0 = (c ^^^ 0x20#8) :: bs := by
  rw [replacePairAt, if_pos (pairAt_zero_iff.mpr ⟨rfl, h⟩)]
  rfl

theorem replacePairAt_of_not_pair {d : Bytes} {i : Nat} (h : pairAt d i = false) : replacePairAt d i = d := by
  simp [replacePairAt, h]

/-- The scan of `b :: d` is the scan of `d`, and then the round at the index of `b`. -/
theorem unescapeBackAt_cons (n : Nat) (b : Byte) (d : Bytes) :
    unescapeBackAt (n + 1) (b :: d) = replacePairAt (b :: unescapeBackAt n d) 0 := by
  induction n generalizing d with
  | zero => rfl
  | succ n ih => rw [unescapeBackAt_succ, replacePairAt_cons_succ, ih, unescapeBackAt_succ]

theorem unescapeBackward_cons_cons (b c : Byte) (bs : Bytes) :
    unescapeBackward (b :: c :: bs) = replacePairAt (b :: unescapeBackward (c :: bs)) 0 :=
  unescapeBackAt_cons bs.length b (c :: bs)

/-- Flipping bit 5 of an escape code gives a reserved byte, which is no escape code (R71). -/
theorem isEscapeCode_flip {c : Byte} (h : isEscapeCode c = true) : isEscapeCode (c ^^^ 0x20#8) = false := by
  obtain rfl | rfl | rfl := isEscapeCode_iff.mp h <;> decide

/-- UNESCAPE keeps the first byte, or puts one that is no escape code in its place (R71's argument). -/
theorem unescape_cons_head (c : Byte) (bs : Bytes) :
    ∃ x xs, unescape (c :: bs) = x :: xs ∧ (x = c ∨ isEscapeCode x = false) := by
  cases bs with
  | nil => exact ⟨c, [], rfl, .inl rfl⟩
  | cons e es =>
    by_cases h : c = esc ∧ isEscapeCode e = true
    · obtain ⟨rfl, he⟩ := h
      exact ⟨_, _, unescape_pair he es, .inr (isEscapeCode_flip he)⟩
    · exact ⟨c, unescape (e :: es), by simp [unescape, h], .inl rfl⟩

/-- Before a sequence already unescaped, the round at index 0 sees a pair exactly where the forward pass sees one. -/
theorem unescape_cons_cons (b c : Byte) (bs : Bytes) :
    unescape (b :: c :: bs) = replacePairAt (b :: unescape (c :: bs)) 0 := by
  by_cases h : b = esc ∧ isEscapeCode c = true
  · obtain ⟨rfl, hc⟩ := h
    rw [unescape_pair hc, unescape_plain (ne_of_isEscapeCode isReserved_esc hc), replacePairAt_zero_pair hc]
  · obtain ⟨x, xs, hx, hhead⟩ := unescape_cons_head c bs
    have hpair : pairAt (b :: x :: xs) 0 = false := by
      refine Bool.eq_false_iff.mpr fun hp => ?_
      obtain ⟨hb, hcode⟩ := pairAt_zero_iff.mp hp
      obtain rfl | hplain := hhead
      · exact h ⟨hb, hcode⟩
      · simp [hplain] at hcode
    rw [hx, replacePairAt_of_not_pair hpair, ← hx]
    simp [unescape, h]

theorem unescape_eq_unescapeBackward (d : Bytes) : unescape d = unescapeBackward d := by
  induction d with
  | nil => rfl
  | cons b bs ih =>
    cases bs with
    | nil => rfl
    | cons c cs => rw [unescape_cons_cons, ih, unescapeBackward_cons_cons]

/-- Settles O19: both scans put the round at index 0 on top of what they make of the tail. -/
theorem unescapeEqualsBackwardScan : Obligations.UnescapeEqualsBackwardScan :=
  unescape_eq_unescapeBackward

/-! ### ESCAPE and UNESCAPE together -/

/-- Settles O20: the law on the image of ESCAPE is the round trip under ESCAPE. -/
theorem unescapeOfEscape : Obligations.UnescapeOfEscape := by
  refine ⟨unescape_escape, by decide, ?_⟩
  rintro _ ⟨x, rfl⟩
  rw [unescape_escape]

/-- Settles O21: the only reserved byte of a stuffed sequence is 0x7D, and an escape code follows it. -/
theorem escapedHasNoDelimiter : Obligations.EscapedHasNoDelimiter := by
  intro x
  refine ⟨sof_notMem_escape x, eof_notMem_escape x, fun i hi => ?_⟩
  obtain ⟨c, hc, hcode⟩ := escapeCode_after_esc hi
  rw [hc]
  simpa using isEscapeCode_iff.mp hcode

end Sys2Proof.Machine
end

section
/-!
PROOFS. FRAME_ENCODE over the state, and the body of a frame: which fields stand where, and which sequences are bodies
(42_frame_codec.md R78 to R81; 30_encoding.md R49, R50).
-/

namespace Sys2Proof.Machine

/-! ### The checks of FRAME_ENCODE -/

theorem ackLegal_eq_false_iff (a : Byte) : ackLegal a = false ↔ a ∉ [0x00#8, 0x06#8, 0x15#8] := by
  rw [← ackLegal_iff, Bool.not_eq_true]

theorem frameEncode_of_not_inEnum {cfg : Config} {f : FrameOperand} (m : Verification)
    (hcommand : inEnum cfg f.command = false) : frameEncode cfg m f = .error .unknownCommand :=
  if_pos hcommand

theorem frameEncode_of_not_ackLegal {cfg : Config} {f : FrameOperand} (m : Verification)
    (hcommand : inEnum cfg f.command = true) (hack : ackLegal f.information.ack = false) :
    frameEncode cfg m f = .error .badInformation := by
  simp [frameEncode, hcommand, hack]

theorem exec_frameEncodeInstr_of_error {m : Verification} {f : FrameOperand} {s : State} {e : Status}
    (h : frameEncode s.config m f = .error e) :
    exec (frameEncodeInstr m f) s = .next { s with responses := s.responses ++ [⟨e, .seq []⟩] } := by
  have hanswer : exec (frameEncodeInstr m f) s = answerEncode m f s := by cases m <;> rfl
  rw [hanswer, answerEncode, h]
  rfl

/-- Settles O23: the two errors of `frameEncode`, and what is left encodes. -/
theorem frameEncodeChecksInOrder : Obligations.FrameEncodeChecksInOrder := by
  intro m f s
  refine ⟨fun hcommand => ?_, fun hcommand hack => ?_, fun hcommand hack => ?_⟩
  · exact exec_frameEncodeInstr_of_error (frameEncode_of_not_inEnum m hcommand)
  · rw [← ackLegal_eq_false_iff] at hack
    exact exec_frameEncodeInstr_of_error (frameEncode_of_not_ackLegal m hcommand hack)
  · rw [← ackLegal_iff] at hack
    exact ⟨_, exec_frameEncodeInstr_of_ok (frameEncode_of_legal m hcommand hack)⟩

theorem inEnum_of_lookup {cfg : Config} {cmd : Word} {entry : CatEntry} (h : lookup cfg cmd = some entry) :
    inEnum cfg cmd = true := by
  rw [inEnum, h, Option.isSome_some]

/-! ### The length of a raw frame -/

/-- The length of the checksum field of a mode, whatever it is computed over (R50). -/
def checksumLength : Verification → Nat
  | .none => 0
  | .mod256 => 1
  | .crc16 => 2

theorem checksumField_length_eq (m : Verification) (body : Bytes) :
    (checksumField m body).length = checksumLength m := checksumField_length m body

/-- R82: the minimum length is that of the delimiters, the header and the checksum field. -/
theorem minLen_eq (m : Verification) : minLen m = 14 + checksumLength m := by
  cases m <;> rfl

theorem rawFrame_length (m : Verification) (body : Bytes) :
    (rawFrame m body).length = 2 + (escape (body ++ checksumField m body)).length := by
  simp [rawFrame]
  omega

theorem length_le_escape_length (d : Bytes) : d.length ≤ (escape d).length := by
  rw [escape_length]
  omega

/-- A raw frame with a whole header meets the minimum length of its mode. -/
theorem minLen_le_rawFrame_length {m : Verification} {body : Bytes} (h : 12 ≤ body.length) :
    minLen m ≤ (rawFrame m body).length := by
  have stuffed := length_le_escape_length (body ++ checksumField m body)
  rw [List.length_append, checksumField_length_eq] at stuffed
  rw [minLen_eq, rawFrame_length]
  omega

theorem headerLength_le_frameBody_length (f : FrameOperand) : headerLength ≤ (frameBody f).length := by
  rw [frameBody_length]
  exact Nat.le_add_right 12 _

/-- Settles O24: stuffing adds one byte for each reserved byte of the body and the checksum field. -/
theorem encodedFrameLength : Obligations.EncodedFrameLength := by
  intro cfg m f w h
  obtain rfl := eq_rawFrame_of_frameEncode h
  refine ⟨rawFrame_length m _, ?_, minLen_le_rawFrame_length (headerLength_le_frameBody_length f)⟩
  simp only [rawFrame_length, escape_length, List.length_append, frameBody_length, ← isReserved_iff_mem,
    Bool.decide_eq_true]
  ring

/-! ### The fields of a body -/

theorem rd16_frameBody_command (f : FrameOperand) : rd16 (frameBody f) 1 = f.command :=
  extractLsb'_high_append_low f.command

theorem rd16_frameBody_dataOffset (f : FrameOperand) : rd16 (frameBody f) 3 = dataOffsetValue :=
  extractLsb'_high_append_low dataOffsetValue

theorem readInformation_frameBody (f : FrameOperand) : readInformation (frameBody f) 5 = f.information := by
  have hnr : rd16 (frameBody f) (5 + 1) = f.information.nr := extractLsb'_high_append_low f.information.nr
  have hdev : rd16 (frameBody f) (5 + 3) = f.information.devStatus :=
    extractLsb'_high_append_low f.information.devStatus
  have hstatus : rd16 (frameBody f) (5 + 5) = f.information.status :=
    extractLsb'_high_append_low f.information.status
  rw [readInformation, hnr, hdev, hstatus]
  rfl

/-- Reading the body of a frame gives the frame's fields back. -/
theorem bodyOperand_frameBody (f : FrameOperand) : bodyOperand (frameBody f) = f := by
  rw [bodyOperand, rd16_frameBody_command, readInformation_frameBody]
  rfl

theorem le16_pair (a b : Byte) : le16 (b ++ a) = [a, b] :=
  congrArg₂ (fun low high => [low, high]) BitVec.extractLsb'_append_eq_right BitVec.extractLsb'_append_eq_left

theorem drop_eq_getD_cons {x : Bytes} {i : Nat} (h : i < x.length) : x.drop i = x.getD i 0#8 :: x.drop (i + 1) := by
  rw [List.drop_eq_getElem_cons h, List.getD_eq_getElem _ _ h]

/-- Two bytes read low byte first stand in the sequence as `le16` lays them out. -/
theorem drop_eq_le16_append {x : Bytes} {i : Nat} (h : i + 1 < x.length) :
    x.drop i = le16 (rd16 x i) ++ x.drop (i + 2) := by
  rw [rd16, le16_pair, drop_eq_getD_cons (Nat.lt_of_succ_lt h), drop_eq_getD_cons h]
  rfl

/-- The converse of `bodyOperand_frameBody`: a sequence with a whole header and the fixed dataOffset is the body of the
frame it spells, for the fields of R49 follow each other without a gap. -/
theorem frameBody_bodyOperand {p : Bytes} (hlen : 12 ≤ p.length) (hoff : rd16 p 3 = dataOffsetValue) :
    frameBody (bodyOperand p) = p := by
  have word (i : Nat) (hi : i ≤ 10) : p.drop i = le16 (rd16 p i) ++ p.drop (i + 2) :=
    drop_eq_le16_append (by omega)
  calc frameBody (bodyOperand p)
      = p.getD 0 0#8 :: (le16 (rd16 p 1) ++ (le16 (rd16 p 3) ++ (p.getD 5 0#8 ::
          (le16 (rd16 p 6) ++ (le16 (rd16 p 8) ++ (le16 (rd16 p 10) ++ p.drop 12)))))) := by rw [hoff]; rfl
    _ = p.getD 0 0#8 :: p.drop 1 := by
        rw [← word 10 (by decide), ← word 8 (by decide), ← word 6 (by decide),
          ← drop_eq_getD_cons (i := 5) (by omega), ← word 3 (by decide), ← word 1 (by decide)]
    _ = p := (drop_eq_getD_cons (i := 0) (by omega)).symm

/-- Bytes behind a body are read as further data (R92). -/
theorem frameBody_append (f : FrameOperand) (x : Bytes) :
    frameBody f ++ x = frameBody { f with data := f.data ++ x } := by
  simp [frameBody]

end Sys2Proof.Machine
end

section
/-!
PROOFS. FRAME_DECODE: the delimiters, the checksum field and the body as three stages, each with what it accepts; the
order of the checks; and decoding what FRAME_ENCODE gives (42_frame_codec.md R82 to R92).
-/

namespace Sys2Proof.Machine

/-! ### The delimiters -/

theorem delimited_delimited (x : Bytes) : delimited (sof :: (x ++ [eof])) = true := by
  have last : (sof :: (x ++ [eof])).getLast? = some eof := by rw [← List.cons_append, List.getLast?_concat]
  simp [delimited, last]

theorem delimited_iff {w : Bytes} :
    delimited w = true ↔ w[0]? = some 0x7E#8 ∧ w[w.length - 1]? = some 0x7F#8 := by
  simp [delimited, List.head?_eq_getElem?, List.getLast?_eq_getElem?]

theorem eq_delimited_of_delimited {w : Bytes} (hlen : 2 ≤ w.length) (h : delimited w = true) :
    ∃ inside, w = sof :: (inside ++ [eof]) := by
  simp only [delimited, Bool.and_eq_true, beq_iff_eq] at h
  obtain ⟨hhead, hlast⟩ := h
  obtain ⟨y, rfl⟩ := List.getLast?_eq_some_iff.mp hlast
  cases y with
  | nil => simp at hlen
  | cons b inside =>
    obtain rfl : b = sof := by simpa using hhead
    exact ⟨inside, rfl⟩

theorem two_le_minLen (m : Verification) : 2 ≤ minLen m := by
  cases m <;> decide

theorem frameInterior_eq_dropLast (w : Bytes) : frameInterior w = (w.drop 1).dropLast := by
  rw [frameInterior, List.dropLast_eq_take, List.length_drop]
  rfl

theorem frameInterior_length (w : Bytes) : (frameInterior w).length = w.length - 2 := by
  rw [frameInterior_eq_dropLast, List.length_dropLast, List.length_drop, Nat.sub_sub]

/-! ### The checksum field -/

/-- The part of an unescaped interior that stands before the checksum field of the mode (R61, R65). -/
def beforeChecksum (m : Verification) (i : Bytes) : Bytes := i.take (i.length - checksumLength m)

/-- The provided checksum field: the last bytes of an unescaped interior (R61, R65). -/
def providedChecksum (m : Verification) (i : Bytes) : Bytes := i.drop (i.length - checksumLength m)

theorem beforeChecksum_append_providedChecksum (m : Verification) (i : Bytes) :
    beforeChecksum m i ++ providedChecksum m i = i := List.take_append_drop _ i

theorem providedChecksum_length {m : Verification} {i : Bytes} (h : checksumLength m ≤ i.length) :
    (providedChecksum m i).length = checksumLength m := by
  rw [providedChecksum, List.length_drop, Nat.sub_sub_self h]

theorem append_eq_iff_pair_eq_le16 {a b : Byte} {v : Word} : b ++ a = v ↔ [a, b] = le16 v := by
  constructor
  · rintro rfl
    exact (le16_pair a b).symm
  · intro h
    simp only [le16, List.cons.injEq, and_true] at h
    obtain ⟨rfl, rfl⟩ := h
    exact extractLsb'_high_append_low v

/-- Step 4 of R83 in each mode: the field that stands behind `p` is compared with the one computed over `p`. -/
theorem stripChecksum_append {m : Verification} {p c : Bytes} (hc : c.length = checksumLength m) :
    stripChecksum m (p ++ c) = if c = checksumField m p then some p else none := by
  cases m with
  | none =>
    obtain rfl := List.eq_nil_of_length_eq_zero hc
    simp [stripChecksum, checksumField]
  | mod256 =>
    obtain ⟨b, rfl⟩ := List.length_eq_one_iff.mp hc
    simp [stripChecksum, checksumField]
  | crc16 =>
    obtain ⟨a, b, rfl⟩ := List.length_eq_two.mp hc
    have read : rd16 (p ++ [a, b]) p.length = b ++ a := rd16_of_getElem? (by simp) (by simp)
    simp only [stripChecksum, List.length_append, List.length_cons, List.length_nil, Nat.add_sub_cancel,
      List.take_left, read]
    exact if_congr append_eq_iff_pair_eq_le16 rfl rfl

theorem stripChecksum_of_ne {m : Verification} {i : Bytes} (hlen : checksumLength m ≤ i.length)
    (h : providedChecksum m i ≠ checksumField m (beforeChecksum m i)) : stripChecksum m i = none := by
  rw [← beforeChecksum_append_providedChecksum m i, stripChecksum_append (providedChecksum_length hlen), if_neg h]

theorem stripChecksum_of_eq {m : Verification} {i : Bytes} (hlen : checksumLength m ≤ i.length)
    (h : providedChecksum m i = checksumField m (beforeChecksum m i)) :
    stripChecksum m i = some (beforeChecksum m i) := by
  rw [← beforeChecksum_append_providedChecksum m i, stripChecksum_append (providedChecksum_length hlen), if_pos h,
    beforeChecksum_append_providedChecksum]

theorem stripChecksum_append_checksumField (m : Verification) (p : Bytes) :
    stripChecksum m (p ++ checksumField m p) = some p := by
  rw [stripChecksum_append (checksumField_length_eq m p), if_pos rfl]

/-- Where there is room for the field, step 4 accepts a body followed by its own checksum field and nothing else. -/
theorem stripChecksum_eq_some_iff {m : Verification} {i p : Bytes} (hlen : checksumLength m ≤ i.length) :
    stripChecksum m i = some p ↔ i = p ++ checksumField m p := by
  constructor
  · intro h
    by_cases hsum : providedChecksum m i = checksumField m (beforeChecksum m i)
    · obtain rfl : beforeChecksum m i = p := Option.some.inj ((stripChecksum_of_eq hlen hsum).symm.trans h)
      rw [← hsum, beforeChecksum_append_providedChecksum]
    · cases (stripChecksum_of_ne hlen hsum).symm.trans h
  · rintro rfl
    exact stripChecksum_append_checksumField m p

/-- UNESCAPE at most halves a sequence. -/
theorem length_le_two_mul_unescape_length (d : Bytes) : d.length ≤ 2 * (unescape d).length := by
  induction d using unescape.induct with
  | case1 => exact Nat.le_refl 0
  | case2 b => exact Nat.le_add_left 1 1
  | case3 b c bs hpair ih =>
    simp only [unescape, if_pos hpair, List.length_cons]
    omega
  | case4 b c bs hpair ih =>
    simp only [unescape, if_neg hpair, List.length_cons] at ih ⊢
    omega

/-- R83's corner case: the minimum raw length leaves room for the checksum field in the unescaped interior. -/
theorem checksumLength_le_of_minLen {m : Verification} {w : Bytes} (h : minLen m ≤ w.length) :
    checksumLength m ≤ (unescape (frameInterior w)).length := by
  have half := length_le_two_mul_unescape_length (frameInterior w)
  rw [frameInterior_length] at half
  rw [minLen_eq] at h
  cases m <;> simp only [checksumLength] at h ⊢ <;> omega

/-! ### The body -/

section

variable {cfg : Config} {m : Verification} {p : Bytes} {entry : CatEntry}

theorem parseBody_of_short (h : p.length < 12) : parseBody cfg m p = .error .frameTooShort :=
  if_pos h

theorem parseBody_of_not_inEnum (hlen : 12 ≤ p.length) (h : inEnum cfg (rd16 p 1) = false) :
    parseBody cfg m p = .error .unknownCommand := by
  have hnone : lookup cfg (rd16 p 1) = none := by simpa [inEnum] using h
  simp [parseBody, hlen, hnone]

theorem parseBody_of_badDataOffset (hlen : 12 ≤ p.length) (hcmd : lookup cfg (rd16 p 1) = some entry)
    (h : rd16 p 3 ≠ dataOffsetValue) : parseBody cfg m p = .error .badDataOffset := by
  simp [parseBody, hlen, hcmd, h]

theorem parseBody_of_not_ackLegal (hlen : 12 ≤ p.length) (hcmd : lookup cfg (rd16 p 1) = some entry)
    (hoff : rd16 p 3 = dataOffsetValue) (h : ackLegal (p.getD 5 0#8) = false) :
    parseBody cfg m p = .error .badInformation := by
  simp only [parseBody, hcmd, hoff, h]
  simp [hlen]

theorem parseBody_of_not_accepts (hlen : 12 ≤ p.length) (hcmd : lookup cfg (rd16 p 1) = some entry)
    (hoff : rd16 p 3 = dataOffsetValue) (hack : ackLegal (p.getD 5 0#8) = true)
    (h : accepts (lenSpecFor entry (readInformation p 5)) (p.length - 12) = false) :
    parseBody cfg m p = .error .payloadLengthMismatch := by
  simp only [parseBody, hcmd, hoff, hack, List.length_drop, headerLength, h]
  simp [hlen]

theorem parseBody_of_accepts (hlen : 12 ≤ p.length) (hcmd : lookup cfg (rd16 p 1) = some entry)
    (hoff : rd16 p 3 = dataOffsetValue) (hack : ackLegal (p.getD 5 0#8) = true)
    (h : accepts (lenSpecFor entry (readInformation p 5)) (p.length - 12) = true) :
    parseBody cfg m p = .ok (frameOf m (bodyOperand p)) := by
  simp only [parseBody, hcmd, hoff, hack, List.length_drop, headerLength, h]
  simp [hlen, frameOf, bodyOperand]

end

/-- The parse of a body whose command is known and whose ack byte is legal depends on the payload length alone. -/
theorem parseBody_frameBody {cfg : Config} {f : FrameOperand} {entry : CatEntry} (m : Verification)
    (hcmd : lookup cfg f.command = some entry) (hack : ackLegal f.information.ack = true) :
    parseBody cfg m (frameBody f) =
      if accepts (lenSpecFor entry f.information) f.data.length then .ok (frameOf m f)
      else .error .payloadLengthMismatch := by
  have hlen : 12 ≤ (frameBody f).length := headerLength_le_frameBody_length f
  have hcmd' : lookup cfg (rd16 (frameBody f) 1) = some entry := by rwa [rd16_frameBody_command]
  have hoff := rd16_frameBody_dataOffset f
  have hdata : accepts (lenSpecFor entry (readInformation (frameBody f) 5)) ((frameBody f).length - 12) =
      accepts (lenSpecFor entry f.information) f.data.length := by
    rw [readInformation_frameBody, frameBody_length, Nat.add_sub_cancel_left]
  cases h : accepts (lenSpecFor entry f.information) f.data.length with
  | false => exact parseBody_of_not_accepts hlen hcmd' hoff hack (hdata.trans h)
  | true =>
    rw [parseBody_of_accepts hlen hcmd' hoff hack (hdata.trans h), bodyOperand_frameBody]
    rfl

theorem exists_lookup_of_syntacticallyValid {cfg : Config} {f : FrameOperand}
    (h : syntacticallyValid cfg f = true) :
    ∃ entry, lookup cfg f.command = some entry ∧ ackLegal f.information.ack = true ∧
      accepts (lenSpecFor entry f.information) f.data.length = true := by
  cases hcmd : lookup cfg f.command with
  | none => simp [syntacticallyValid, hcmd] at h
  | some entry =>
    rw [syntacticallyValid_of_lookup hcmd, Bool.and_eq_true] at h
    exact ⟨entry, rfl, h⟩

theorem parseBody_of_syntacticallyValid {cfg : Config} {f : FrameOperand} (m : Verification)
    (h : syntacticallyValid cfg f = true) : parseBody cfg m (frameBody f) = .ok (frameOf m f) := by
  obtain ⟨entry, hcmd, hack, hdata⟩ := exists_lookup_of_syntacticallyValid h
  rw [parseBody_frameBody m hcmd hack, if_pos hdata]

/-- Steps 5 to 7 of R83 accept the bodies of syntactically valid frames and nothing else. -/
theorem parseBody_eq_ok_iff {cfg : Config} {m : Verification} {p : Bytes} {g : Frame} :
    parseBody cfg m p = .ok g ↔ ∃ f, p = frameBody f ∧ syntacticallyValid cfg f = true ∧ g = frameOf m f := by
  constructor
  · intro h
    obtain ⟨hok, hlen, hoff, valid⟩ | ⟨e, -, herr⟩ := parseBody_cases cfg m p
    · cases h.symm.trans hok
      exact ⟨bodyOperand p, (frameBody_bodyOperand hlen hoff).symm, valid, rfl⟩
    · cases h.symm.trans herr
  · rintro ⟨f, rfl, valid, rfl⟩
    exact parseBody_of_syntacticallyValid m valid

/-! ### The stages in their order -/

section

variable {cfg : Config} {m : Verification} {w p : Bytes}

theorem frameDecode_of_short (h : w.length < minLen m) : frameDecode cfg m w = .error .frameTooShort :=
  if_pos h

theorem frameDecode_of_not_delimited (hlen : minLen m ≤ w.length) (h : delimited w = false) :
    frameDecode cfg m w = .error .badDelimiter := by
  simp [frameDecode, hlen, h]

theorem frameDecode_of_stripChecksum_none (hlen : minLen m ≤ w.length) (hdelim : delimited w = true)
    (h : stripChecksum m (unescape (frameInterior w)) = none) :
    frameDecode cfg m w = .error .checksumMismatch := by
  simp [frameDecode, hlen, hdelim, h]

theorem frameDecode_of_stripChecksum_some (hlen : minLen m ≤ w.length) (hdelim : delimited w = true)
    (h : stripChecksum m (unescape (frameInterior w)) = some p) :
    frameDecode cfg m w = parseBody cfg m p := by
  simp [frameDecode, hlen, hdelim, h]

end

/-- What FRAME_DECODE makes of a delimited sequence whose interior unescapes to a body and its checksum field. -/
theorem frameDecode_delimited {m : Verification} {inside p : Bytes} (cfg : Config)
    (hlen : minLen m ≤ inside.length + 2) (h : unescape inside = p ++ checksumField m p) :
    frameDecode cfg m (sof :: (inside ++ [eof])) = parseBody cfg m p := by
  apply frameDecode_of_stripChecksum_some (by simpa using hlen) (delimited_delimited inside)
  rw [frameInterior_delimited, h, stripChecksum_append_checksumField]

/-- Settles O30: a Frame passes the three stages, and each stage accepts exactly what the layout lays out there. -/
theorem frameDecodeAcceptsExactlyRawFrames : Obligations.FrameDecodeAcceptsExactlyRawFrames := by
  intro cfg m w g
  constructor
  · intro h
    have hlen : minLen m ≤ w.length := by
      by_contra hshort
      cases h.symm.trans (frameDecode_of_short (not_le.mp hshort))
    have hdelim : delimited w = true := by
      by_contra hbad
      cases h.symm.trans (frameDecode_of_not_delimited hlen (eq_false_of_ne_true hbad))
    cases hsum : stripChecksum m (unescape (frameInterior w)) with
    | none => cases h.symm.trans (frameDecode_of_stripChecksum_none hlen hdelim hsum)
    | some p =>
      obtain ⟨f, rfl, valid, rfl⟩ :=
        parseBody_eq_ok_iff.mp ((frameDecode_of_stripChecksum_some hlen hdelim hsum).symm.trans h)
      have hbody := (stripChecksum_eq_some_iff (checksumLength_le_of_minLen hlen)).mp hsum
      obtain ⟨inside, rfl⟩ := eq_delimited_of_delimited ((two_le_minLen m).trans hlen) hdelim
      rw [frameInterior_delimited] at hbody
      exact ⟨f, inside, rfl, hlen, hbody, valid, rfl⟩
  · rintro ⟨f, inside, rfl, hlen, hbody, valid, rfl⟩
    rw [frameDecode_delimited cfg (by simpa using hlen) hbody]
    exact parseBody_of_syntacticallyValid m valid

/-! ### FRAME_DECODE over the state -/

theorem exec_frameDecodeInstr (m : Verification) (w : Bytes) (s : State) :
    exec (frameDecodeInstr m w) s = answerDecode m w s := by
  cases m <;> rfl

theorem exec_frameDecodeInstr_of_ok {m : Verification} {w : Bytes} {s : State} {g : Frame}
    (h : frameDecode s.config m w = .ok g) :
    exec (frameDecodeInstr m w) s = .next { s with responses := s.responses ++ [⟨.ok, .frame (some g)⟩] } := by
  rw [exec_frameDecodeInstr, answerDecode, h]
  rfl

theorem exec_frameDecodeInstr_of_error {m : Verification} {w : Bytes} {s : State} {e : Status}
    (h : frameDecode s.config m w = .error e) :
    exec (frameDecodeInstr m w) s = .next { s with responses := s.responses ++ [⟨e, .frame none⟩] } := by
  rw [exec_frameDecodeInstr, answerDecode, h]
  rfl

/-- Settles O29: the three modes are one argument with the checksum field of the mode. -/
theorem frameDecodeAnswersFrame : Obligations.FrameDecodeAnswersFrame := by
  intro f inside s valid
  have answers (m : Verification) (hlen : minLen m ≤ inside.length + 2)
      (h : unescape inside = frameBody f ++ checksumField m (frameBody f)) :
      exec (frameDecodeInstr m (sof :: (inside ++ [eof]))) s =
        .next { s with responses := s.responses ++ [⟨.ok, .frame (some (frameOf m f))⟩] } := by
    apply exec_frameDecodeInstr_of_ok
    rw [frameDecode_delimited s.config hlen h, parseBody_of_syntacticallyValid m valid]
  refine ⟨fun hlen h => answers .none hlen ?_, answers .mod256, answers .crc16⟩
  rw [h]
  exact (List.append_nil _).symm

/-- Settles O31: each clause is one stage's error, reached because the stages before it pass. -/
theorem frameDecodeReportsFirstFailure : Obligations.FrameDecodeReportsFirstFailure := by
  intro m w s fails i p checksumOk longEnough bounded cmd information
  have hi : i = unescape (frameInterior w) := by rw [frameInterior_eq_dropLast]
  have hp : p = beforeChecksum m i := by cases m <;> simp [p, beforeChecksum, checksumLength]
  have hsum : checksumOk ↔ providedChecksum m i = checksumField m (beforeChecksum m i) := by
    rw [← hp]
    cases m <;> simp [checksumOk, providedChecksum, checksumLength, checksumField]
  rw [hi] at hp hsum
  have failing {e : Status} (h : frameDecode s.config m w = .error e) : fails e := exec_frameDecodeInstr_of_error h
  have parsing {e : Status} (hlong : longEnough) (hdelim : bounded) (hok : checksumOk)
      (h : parseBody s.config m p = .error e) : fails e := by
    have hstrip := stripChecksum_of_eq (checksumLength_le_of_minLen hlong) (hsum.mp hok)
    rw [← hp] at hstrip
    exact failing ((frameDecode_of_stripChecksum_some hlong (delimited_iff.mpr hdelim) hstrip).trans h)
  refine ⟨fun hshort => ?_, fun hlong hdelim => ?_, fun hlong hdelim hbad => ?_, fun hlong hdelim hok hshort => ?_,
    fun hlong hdelim hok hlen hcmd => ?_, fun hlong hdelim hok hlen hcmd hoff => ?_,
    fun hlong hdelim hok hlen hcmd hoff hack => ?_, fun hlong hdelim hok hlen hoff hack entry hcmd hdata => ?_⟩
  · exact failing (frameDecode_of_short hshort)
  · exact failing (frameDecode_of_not_delimited hlong (Bool.eq_false_iff.mpr (mt delimited_iff.mp hdelim)))
  · exact failing (frameDecode_of_stripChecksum_none hlong (delimited_iff.mpr hdelim)
      (stripChecksum_of_ne (checksumLength_le_of_minLen hlong) (mt hsum.mpr hbad)))
  · exact parsing hlong hdelim hok (parseBody_of_short hshort)
  · exact parsing hlong hdelim hok (parseBody_of_not_inEnum hlen hcmd)
  · obtain ⟨entry, hentry⟩ := Option.isSome_iff_exists.mp hcmd
    exact parsing hlong hdelim hok (parseBody_of_badDataOffset hlen hentry hoff)
  · obtain ⟨entry, hentry⟩ := Option.isSome_iff_exists.mp hcmd
    exact parsing hlong hdelim hok
      (parseBody_of_not_ackLegal hlen hentry hoff ((ackLegal_eq_false_iff _).mpr hack))
  · exact parsing hlong hdelim hok
      (parseBody_of_not_accepts hlen hcmd hoff ((ackLegal_iff _).mpr hack) hdata)

/-! ### Decoding an encoded frame -/

theorem frameDecode_rawFrame {m : Verification} {body : Bytes} (cfg : Config) (h : 12 ≤ body.length) :
    frameDecode cfg m (rawFrame m body) = parseBody cfg m body :=
  frameDecode_delimited cfg (by simpa [rawFrame] using minLen_le_rawFrame_length (m := m) h) (unescape_escape _)

/-- Settles O32: encoding lays out a raw frame of the mode, and its parse gives the fields back. -/
theorem decodeOfEncodedFrame : Obligations.DecodeOfEncodedFrame := by
  intro m f s valid
  obtain ⟨entry, hcmd, hack, -⟩ := exists_lookup_of_syntacticallyValid valid
  refine ⟨_, exec_frameEncodeInstr_of_ok (frameEncode_of_legal m (inEnum_of_lookup hcmd) hack), fun t ht => ?_⟩
  apply exec_frameDecodeInstr_of_ok
  rw [ht, frameDecode_rawFrame s.config (headerLength_le_frameBody_length f)]
  exact parseBody_of_syntacticallyValid m valid

/-- Settles O26: encoding asks only whether the command has an entry; the entry's lengths are checked by the parse. -/
theorem catalogLengthsPlayNoPartInEncoding : Obligations.CatalogLengthsPlayNoPartInEncoding := by
  refine ⟨fun c₁ c₂ m f h => by simp only [frameEncode, h], fun cfg m f entry hcmd hack => ?_⟩
  rw [← ackLegal_iff] at hack
  refine ⟨_, frameEncode_of_legal m (inEnum_of_lookup hcmd) hack, fun hdata => ?_⟩
  rw [frameDecode_rawFrame cfg (headerLength_le_frameBody_length f), parseBody_frameBody m hcmd hack,
    if_neg (ne_true_of_eq_false hdata)]

/-- R92: mode NONE strips nothing, so the checksum field of the encoding mode is read as the end of the data. -/
theorem frameDecode_none_rawFrame (cfg : Config) (m : Verification) (f : FrameOperand) :
    frameDecode cfg .none (rawFrame m (frameBody f)) =
      parseBody cfg .none (frameBody { f with data := f.data ++ checksumField m (frameBody f) }) := by
  have hlen := minLen_le_rawFrame_length (m := m) (headerLength_le_frameBody_length f)
  rw [minLen_eq, rawFrame_length] at hlen
  refine frameDecode_delimited cfg (by rw [minLen_eq, checksumLength]; omega) ?_
  rw [unescape_escape, frameBody_append]
  exact (List.append_nil _).symm

theorem checksumLength_pos {m : Verification} (h : m ≠ .none) : 0 < checksumLength m := by
  cases m with
  | none => exact absurd rfl h
  | mod256 => decide
  | crc16 => decide

/-- Settles O33: the data is longer by the checksum field, which an Exact length refuses and Variable accepts. -/
theorem checksummedFrameDecodedAsNone : Obligations.ChecksummedFrameDecodedAsNone := by
  intro cfg m f w entry hm valid hentry hw
  obtain rfl := eq_rawFrame_of_frameEncode hw
  obtain ⟨entry', hcmd, hack, hdata⟩ := exists_lookup_of_syntacticallyValid valid
  obtain rfl : entry = entry' := Option.some.inj (hentry.symm.trans hcmd)
  rw [frameDecode_none_rawFrame,
    parseBody_frameBody (f := { f with data := f.data ++ checksumField m (frameBody f) }) .none hcmd hack]
  refine ⟨fun n hn => ?_, fun hvar => ?_⟩
  · rw [hn, accepts, beq_iff_eq] at hdata
    have longer : f.data.length + checksumLength m ≠ n := by
      have := checksumLength_pos hm
      omega
    simp [hn, accepts, checksumField_length_eq, longer]
  · simp [hvar, accepts, frameOf]

end Sys2Proof.Machine
end

section
/-!
PROOFS. The two tokenizer operations over the state, and the rounds that the loop of TOK_NEXT takes (43_tokenizer.md R95
to R100).
-/

namespace Sys2Proof.Machine

/-! ### TOK_APPEND -/

theorem exec_tokAppend_of_ok {s : State} {d b : Bytes} (h : tokAppend s.config.tokCap s.buffer d = .ok b) :
    exec (.tokAppend d) s = .next { s with buffer := b, responses := s.responses ++ [⟨.ok, .none⟩] } := by
  rw [exec, execTokAppend, h]
  rfl

theorem exec_tokAppend_of_error {s : State} {d : Bytes} {e : Status}
    (h : tokAppend s.config.tokCap s.buffer d = .error e) :
    exec (.tokAppend d) s = .next { s with responses := s.responses ++ [⟨e, .none⟩] } := by
  rw [exec, execTokAppend, h]
  rfl

/-- Settles O35: the three cases are those of the capacity check. -/
theorem tokAppendAppendsOrOverflows : Obligations.TokAppendAppendsOrOverflows := by
  intro d s appended
  refine ⟨fun hcap => ?_, fun n hcap => ⟨fun hfits => ?_, fun hpast => ?_⟩⟩
  · exact exec_tokAppend_of_ok (by rw [hcap]; rfl)
  · exact exec_tokAppend_of_ok (by simp [hcap, tokAppend, withinCap, hfits])
  · exact exec_tokAppend_of_error (by simp [hcap, tokAppend, withinCap, hpast])

/-! ### TOK_NEXT over the state -/

theorem exec_tokNext {s : State} {o : Option Bytes} {b : Bytes} (h : tokNext s.buffer = (o, b)) :
    exec .tokNext s = .next { s with buffer := b, responses := s.responses ++ [⟨.ok, tokenResult o⟩] } := by
  rw [exec, execTokNext, h]
  rfl

theorem exec_tokNext_congr {s : State} {b : Bytes} (h : tokNext s.buffer = tokNext b) :
    exec .tokNext s = exec .tokNext { s with buffer := b } := by
  rw [exec_tokNext (s := { s with buffer := b }) rfl, exec_tokNext h]

/-- Settles O36. -/
theorem tokNextAnswersToken : Obligations.TokNextAnswersToken :=
  fun _ => ⟨fun _ _ h => exec_tokNext h, fun _ h => exec_tokNext h⟩

/-! ### The rounds of the loop -/

theorem count_drop_first_lt {b : Bytes} {m : Byte} {i : Nat} (h : first b m = some i) :
    (b.drop (i + 1)).count m < b.count m := by
  obtain ⟨hlt, hm⟩ := List.getElem?_eq_some_iff.mp (first_eq_some_iff.mp h).1
  calc (b.drop (i + 1)).count m
      < (b.drop i).count m := by
        rw [List.drop_eq_getElem_cons hlt, hm, List.count_cons_self]
        exact Nat.lt_succ_self _
    _ ≤ b.count m := (List.drop_sublist i b).count_le m

/-- What one classification can do: cases N, T and S answer, and cases O and E go on with a B of fewer 0x7F bytes. -/
theorem tokNextLoop_succ_cases (b : Bytes) :
    (∃ outcome, ∀ n, tokNextLoop (n + 1) b = outcome) ∨
    ∃ rest, rest.count eof < b.count eof ∧ ∀ n, tokNextLoop (n + 1) b = tokNextLoop n rest := by
  cases hs : first b sof with
  | none =>
    cases hf : first b eof with
    | none => exact .inl ⟨_, fun n => tokNextLoop_neither n hs hf⟩
    | some f => exact .inr ⟨_, count_drop_first_lt hf, fun n => tokNextLoop_end n hs hf⟩
  | some s =>
    cases hf : first b eof with
    | none => exact .inl ⟨_, fun n => tokNextLoop_start n hs hf⟩
    | some f =>
      by_cases h : s < f
      · exact .inl ⟨_, fun n => tokNextLoop_frame n hs hf h⟩
      · exact .inr ⟨_, count_drop_first_lt hf, fun n => tokNextLoop_orphan n hs hf h⟩

theorem tokNextLoop_eq_of_count_lt {m n : Nat} {b : Bytes} (hm : b.count eof < m) (hn : b.count eof < n) :
    tokNextLoop m b = tokNextLoop n b := by
  induction m generalizing n b with
  | zero => exact absurd hm (Nat.not_lt_zero _)
  | succ m ih =>
    obtain ⟨n, rfl⟩ := Nat.exists_eq_add_one_of_ne_zero (Nat.ne_zero_of_lt hn)
    obtain ⟨outcome, answers⟩ | ⟨rest, hrest, loops⟩ := tokNextLoop_succ_cases b
    · rw [answers, answers]
    · rw [loops, loops]
      exact ih (by omega) (by omega)

theorem tokNextLoop_eq_tokNext {n : Nat} {b : Bytes} (h : b.count eof < n) : tokNextLoop n b = tokNext b :=
  tokNextLoop_eq_of_count_lt h (Nat.lt_succ_of_le List.count_le_length)

/-- Settles O38: a classification that goes on has dropped a 0x7F, so the bound never ends the loop. -/
theorem tokNextTerminatesWithinMarkers : Obligations.TokNextTerminatesWithinMarkers :=
  fun _ _ h => tokNextLoop_eq_tokNext h

/-! ### The five cases -/

section

variable {b : Bytes} {s f : Nat}

theorem tokNextLoop_length_drop (hf : first b eof = some f) :
    tokNextLoop b.length (b.drop (f + 1)) = tokNext (b.drop (f + 1)) :=
  tokNextLoop_eq_tokNext ((count_drop_first_lt hf).trans_le List.count_le_length)

theorem tokNext_neither (hs : first b sof = none) (hf : first b eof = none) : tokNext b = (none, b) :=
  tokNextLoop_neither b.length hs hf

theorem tokNext_frame (hs : first b sof = some s) (hf : first b eof = some f) (h : s < f) :
    tokNext b = (some (slice b s f), b.drop (f + 1)) :=
  tokNextLoop_frame b.length hs hf h

theorem tokNext_orphan (hs : first b sof = some s) (hf : first b eof = some f) (h : ¬ s < f) :
    tokNext b = tokNext (b.drop (f + 1)) :=
  (tokNextLoop_orphan b.length hs hf h).trans (tokNextLoop_length_drop hf)

theorem tokNext_start (hs : first b sof = some s) (hf : first b eof = none) : tokNext b = (none, b.drop s) :=
  tokNextLoop_start b.length hs hf

theorem tokNext_end (hs : first b sof = none) (hf : first b eof = some f) :
    tokNext b = tokNext (b.drop (f + 1)) :=
  (tokNextLoop_end b.length hs hf).trans (tokNextLoop_length_drop hf)

end

/-- Settles O37: the five cases of `tokNext`, each carried over to the state. -/
theorem tokNextFiveCases : Obligations.TokNextFiveCases := by
  intro s answers
  refine ⟨fun hs hf => exec_tokNext (tokNext_neither hs hf), fun i f hs hf h => ?_,
    fun i f hs hf h => exec_tokNext_congr (tokNext_orphan hs hf h.asymm),
    fun i hs hf => exec_tokNext (tokNext_start hs hf), fun f hs hf => exec_tokNext_congr (tokNext_end hs hf)⟩
  have token := exec_tokNext (tokNext_frame hs hf h)
  rwa [slice, List.drop_take] at token

/-! ### The outcome -/

/-- Settles O40: R99's shape by positions, and a token whose first 0x7E was left without its 0x7F. -/
theorem tokenShape : Obligations.TokenShape := by
  refine ⟨fun b t r h => ?_, [0x7E#8, 0x7E#8, 0x7F#8], [0x7E#8, 0x7E#8, 0x7F#8], [], by decide, by decide⟩
  obtain ⟨hlen, hhead, hlast, hinside⟩ := tokNext_isToken (congrArg Prod.fst h)
  rw [List.head?_eq_getElem?] at hhead
  rw [List.getLast?_eq_getElem?] at hlast
  exact ⟨hlen, hhead, hlast, hinside⟩

theorem exists_dropped_of_tokNext_some {b t r : Bytes} (h : tokNext b = (some t, r)) :
    ∃ dropped, b = dropped ++ t ++ r := by
  obtain ⟨dropped, hb, -⟩ := tokNext_cutsInto b
  rw [h] at hb
  exact ⟨dropped, hb⟩

/-- Settles O41. -/
theorem bufferAfterTokNext : Obligations.BufferAfterTokNext :=
  ⟨fun _ _ h => drained_of_tokNext_none h, fun _ _ _ h => exists_dropped_of_tokNext_some h⟩

end Sys2Proof.Machine
end

section
/-!
PROOFS. TOK_NEXT without its loop: B is drained, or begins with a token, or begins with a byte that TOK_NEXT passes over;
and so the tokens that a host collects do not depend on where it cuts the bytes (43_tokenizer.md R96, R98, R102).
-/

namespace Sys2Proof.Machine

open Sys2Proof.Safety

/-! ### The bytes before a token -/

/-- A byte `a` before `b` that TOK_NEXT drops: it starts no token, and it is a marker or a marker comes after it. -/
def PassedOver (a : Byte) (b : Bytes) : Prop := a ≠ sof ∧ (a = eof ∨ sof ∈ b ∨ eof ∈ b)

theorem passedOver_of_mem {a : Byte} {b : Bytes} (ha : a ≠ sof) (h : sof ∈ b) : PassedOver a b := ⟨ha, .inr (.inl h)⟩

theorem PassedOver.append {a : Byte} {b : Bytes} (h : PassedOver a b) (c : Bytes) : PassedOver a (b ++ c) := by
  obtain ⟨ha, rfl | hsof | heof⟩ := h
  · exact ⟨ha, .inl rfl⟩
  · exact passedOver_of_mem ha (List.mem_append_left c hsof)
  · exact ⟨ha, .inr (.inr (List.mem_append_left c heof))⟩

theorem tokNext_cons_eof (b : Bytes) : tokNext (eof :: b) = tokNext b := by
  have hf : first (eof :: b) eof = some 0 := first_cons_self eof b
  cases hs : first (eof :: b) sof with
  | none => exact tokNext_end hs hf
  | some s => exact tokNext_orphan hs hf (Nat.not_lt_zero s)

/-- A byte that is no marker moves both markers up by one, and no case but N keeps it. -/
theorem tokNext_cons_of_no_marker {a : Byte} {b : Bytes} (hsof : a ≠ sof) (heof : a ≠ eof) (h : sof ∈ b ∨ eof ∈ b) :
    tokNext (a :: b) = tokNext b := by
  have hs' := first_cons_of_ne hsof b
  have hf' := first_cons_of_ne heof b
  cases hs : first b sof with
  | none =>
    rw [hs] at hs'
    cases hf : first b eof with
    | none => exact absurd h (not_or.mpr ⟨first_eq_none_iff.mp hs, first_eq_none_iff.mp hf⟩)
    | some f =>
      rw [hf] at hf'
      rw [tokNext_end hs hf, tokNext_end hs' hf', List.drop_succ_cons]
  | some s =>
    rw [hs] at hs'
    cases hf : first b eof with
    | none =>
      rw [hf] at hf'
      rw [tokNext_start hs hf, tokNext_start hs' hf', List.drop_succ_cons]
    | some f =>
      rw [hf] at hf'
      by_cases hsf : s < f
      · rw [tokNext_frame hs hf hsf, tokNext_frame hs' hf' (Nat.succ_lt_succ hsf)]
        rfl
      · rw [tokNext_orphan hs hf hsf, tokNext_orphan hs' hf' (fun h => hsf (Nat.lt_of_succ_lt_succ h)),
          List.drop_succ_cons]

theorem PassedOver.tokNext_eq {a : Byte} {b : Bytes} (h : PassedOver a b) : tokNext (a :: b) = tokNext b := by
  obtain ⟨hsof, hmarker⟩ := h
  by_cases heof : a = eof
  · rw [heof, tokNext_cons_eof]
  · exact tokNext_cons_of_no_marker hsof heof (hmarker.resolve_left heof)

/-- What B can begin with. -/
theorem drained_or_token_or_passedOver (a : Byte) (b : Bytes) :
    Drained (a :: b) ∨ (∃ t r, a :: b = t ++ r ∧ IsToken t) ∨ PassedOver a b := by
  by_cases hsof : a = sof
  · subst hsof
    by_cases heof : eof ∈ b
    · obtain ⟨x, r, rfl, hx⟩ := List.eq_append_cons_of_mem heof
      exact .inr (.inl ⟨sof :: (x ++ [eof]), r, by simp, isToken_delimited hx⟩)
    · exact .inl ⟨List.not_mem_cons_of_ne_of_not_mem (by decide) heof, .inr rfl⟩
  · by_cases hmarker : a = eof ∨ sof ∈ b ∨ eof ∈ b
    · exact .inr (.inr ⟨hsof, hmarker⟩)
    · simp only [not_or] at hmarker
      obtain ⟨heof, hsofb, heofb⟩ := hmarker
      exact .inl ⟨List.not_mem_cons_of_ne_of_not_mem (Ne.symm heof) heofb,
        .inl (List.not_mem_cons_of_ne_of_not_mem (Ne.symm hsof) hsofb)⟩

/-! ### The first delimited run -/

theorem sof_mem_of_isToken {t : Bytes} (h : IsToken t) : sof ∈ t := by
  obtain ⟨-, hhead, -⟩ := h
  exact List.mem_of_mem_head? hhead

theorem tokNext_append_token {dropped t : Bytes} (hdropped : sof ∉ dropped) (ht : IsToken t) (r : Bytes) :
    tokNext (dropped ++ t ++ r) = (some t, r) := by
  induction dropped with
  | nil => exact tokNext_append_of_isToken ht r
  | cons a as ih =>
    obtain ⟨ha, has⟩ := List.ne_and_not_mem_of_not_mem_cons hdropped
    have hsof : sof ∈ as ++ t ++ r := by simp [sof_mem_of_isToken ht]
    exact (passedOver_of_mem ha.symm hsof).tokNext_eq.trans (ih has)

theorem exists_dropped_token_of_tokNext_some {b t r : Bytes} (h : tokNext b = (some t, r)) :
    ∃ dropped, b = dropped ++ t ++ r ∧ sof ∉ dropped ∧ IsToken t := by
  induction b with
  | nil => cases h.symm.trans drained_nil.tokNext_eq
  | cons a b ih =>
    obtain hdrained | ⟨t', r', hb, ht⟩ | hpassed := drained_or_token_or_passedOver a b
    · cases h.symm.trans hdrained.tokNext_eq
    · rw [hb] at h ⊢
      cases h.symm.trans (tokNext_append_of_isToken ht r')
      exact ⟨[], rfl, List.not_mem_nil, ht⟩
    · obtain ⟨dropped, rfl, hdropped, ht⟩ := ih (hpassed.tokNext_eq.symm.trans h)
      obtain ⟨ha, -⟩ := hpassed
      exact ⟨a :: dropped, rfl, List.not_mem_cons_of_ne_of_not_mem ha.symm hdropped, ht⟩

/-- Settles O39, both ways by induction on the bytes before the token. -/
theorem tokNextTakesFirstDelimitedRun : Obligations.TokNextTakesFirstDelimitedRun := by
  intro b t r
  refine ⟨exists_dropped_token_of_tokNext_some, ?_⟩
  rintro ⟨dropped, rfl, hdropped, ht⟩
  exact tokNext_append_token hdropped ht r

/-! ### Draining before and after more bytes arrive -/

/-- Bytes that arrive behind a token do not change it. -/
theorem tokNext_append_of_some {b t r : Bytes} (h : tokNext b = (some t, r)) (c : Bytes) :
    tokNext (b ++ c) = (some t, r ++ c) := by
  obtain ⟨dropped, rfl, hdropped, ht⟩ := exists_dropped_token_of_tokNext_some h
  rw [List.append_assoc]
  exact tokNext_append_token hdropped ht (r ++ c)

/-- What a TOK_NEXT without a token drops would be dropped as well had it come after the next bytes. -/
theorem tokNext_append_of_none {b r : Bytes} (h : tokNext b = (none, r)) (c : Bytes) :
    tokNext (b ++ c) = tokNext (r ++ c) := by
  induction b with
  | nil =>
    cases h.symm.trans drained_nil.tokNext_eq
    rfl
  | cons a b ih =>
    obtain hdrained | ⟨t, r', hb, ht⟩ | hpassed := drained_or_token_or_passedOver a b
    · cases h.symm.trans hdrained.tokNext_eq
      rfl
    · rw [hb] at h
      cases h.symm.trans (tokNext_append_of_isToken ht r')
    · exact (hpassed.append c).tokNext_eq.trans (ih (hpassed.tokNext_eq.symm.trans h))

theorem Drains.of_tokNext_eq {b b' r : Bytes} {ts : List Bytes} (h : Drains b ts r) (hb : tokNext b' = tokNext b) :
    Drains b' ts r := by
  cases h with
  | stop h => exact .stop (hb.trans h)
  | take h rest => exact .take (hb.trans h) rest

/-- Draining before and after the bytes `c` arrive takes what draining once after them takes. -/
theorem Drains.append {b c r q : Bytes} {ts us : List Bytes} (hb : Drains b ts r) (hc : Drains (r ++ c) us q) :
    Drains (b ++ c) (ts ++ us) q := by
  induction hb with
  | stop h => exact hc.of_tokNext_eq (tokNext_append_of_none h c)
  | take h _ ih => exact .take (tokNext_append_of_some h c) (ih hc)

theorem Drains.rest_length_le {b r : Bytes} {ts : List Bytes} (h : Drains b ts r) : r.length ≤ b.length := by
  induction h with
  | @stop b _ h => simpa [h] using tokNext_length_le b
  | take h _ ih => exact ih.trans (tokNext_length_lt h).le

/-- A host that drains after every chunk collects what draining once, with all the bytes in B, would take. -/
theorem issueFeedAll_drains {s : State} {chunks : List Bytes}
    (hstart : chunks ≠ [] ∨ tokNext s.buffer = (none, s.buffer))
    (hfits : withinCap s.config.tokCap (s.buffer ++ chunks.flatten).length = true) :
    ∃ ts t, issueFeedAll chunks s = some (ts, t) ∧ Drains (s.buffer ++ chunks.flatten) ts t.buffer := by
  induction chunks generalizing s with
  | nil =>
    refine ⟨[], s, rfl, ?_⟩
    rw [List.flatten_nil, List.append_nil]
    exact .stop (hstart.resolve_left (not_not.mpr rfl))
  | cons d ds ih =>
    rw [List.flatten_cons, ← List.append_assoc] at hfits ⊢
    obtain ⟨ts, r, hdrains⟩ := exists_drains (s.buffer ++ d)
    obtain ⟨t, hfeed, hbuffer, hconfig, -⟩ :=
      hdrains.issueFeed_eq (withinCap_of_le (List.prefix_append _ _).length_le hfits)
    subst hbuffer
    have hlen : (t.buffer ++ ds.flatten).length ≤ (s.buffer ++ d ++ ds.flatten).length := by
      rw [List.length_append, List.length_append (as := s.buffer ++ d)]
      exact Nat.add_le_add_right hdrains.rest_length_le _
    obtain ⟨us, u, hall, hrest⟩ := ih (.inr hdrains.drained.tokNext_eq) (hconfig ▸ withinCap_of_le hlen hfits)
    refine ⟨ts ++ us, u, ?_, hdrains.append hrest⟩
    rw [issueFeedAll, hfeed, Option.bind_some, hall, Option.map_some]

/-- Settles O43: both cuts collect what draining once takes, and that is one outcome. -/
theorem tokensDoNotDependOnChunking : Obligations.TokensDoNotDependOnChunking := by
  intro s d₁ d₂ hstart hfits hsame
  rw [← List.length_append] at hfits
  obtain ⟨ts₁, s₁, hfeed₁, hdrains₁⟩ := issueFeedAll_drains (hstart.imp_left And.left) hfits
  obtain ⟨ts₂, s₂, hfeed₂, hdrains₂⟩ := issueFeedAll_drains (hstart.imp_left And.right) (hsame ▸ hfits)
  rw [← hsame] at hdrains₂
  obtain ⟨rfl, hbuffer⟩ := Prod.ext_iff.mp (hdrains₁.drain_eq.symm.trans hdrains₂.drain_eq)
  exact ⟨ts₁, s₁, s₂, hfeed₁, hfeed₂, hbuffer⟩

end Sys2Proof.Machine
end

section
/-!
PROOFS. The statuses: their codes (60_exceptions.md R104), what an error leaves unchanged (R107, R108), and where each
status of R105 is answered.
-/

namespace Sys2Proof.Machine

/-! ### The codes -/

/-- The table of R104, in the order of its codes. -/
def statusTable : List Status :=
  [.ok, .frameTooShort, .badDelimiter, .checksumMismatch, .unknownCommand, .badDataOffset, .badInformation,
    .payloadLengthMismatch, .encodingValueError, .incorrectByteCount, .illegalOperation, .tokenizerOverflow]

theorem statusTable_getElem?_code (e : Status) : statusTable[e.code.toNat]? = some e := by
  cases e <;> rfl

/-- Settles O10: a code is the index of its status in a table of twelve. -/
theorem statusCodesAreDistinct : Obligations.StatusCodesAreDistinct := by
  refine ⟨fun e₁ e₂ h => ?_, fun e => ?_, rfl, rfl, rfl, rfl, rfl, rfl, rfl, rfl, rfl, rfl, rfl, rfl⟩
  · have hsame := statusTable_getElem?_code e₁
    rw [h, statusTable_getElem?_code e₂] at hsame
    exact (Option.some.inj hsame).symm
  · obtain ⟨hlt, -⟩ := List.getElem?_eq_some_iff.mp (statusTable_getElem?_code e)
    exact Nat.le_of_lt_succ hlt

/-! ### An error -/

/-- What an operation answers in a state: one response that it may give, and a new B only with the status OK. -/
theorem exec_keeps_buffer_of_error (i : Instr) (s : State) :
    ∃ b x, exec i s = .next ((s.setBuffer b).respond x) ∧ MayAnswer s.config i x ∧
      (x.status ≠ .ok → b = s.buffer) := by
  by_cases happend : ∃ d, i = .tokAppend d
  · obtain ⟨d, rfl⟩ := happend
    obtain ⟨hok, -⟩ | ⟨hoverflow, -⟩ := tokAppend_cases s.config.tokCap s.buffer d
    · exact ⟨s.buffer ++ d, returned .none, exec_tokAppend_of_ok hok, mayAnswer_returned _ ⟨nofun, nofun⟩,
        fun h => absurd rfl h⟩
    · exact ⟨s.buffer, raised .tokenizerOverflow .none, exec_tokAppend_of_error hoverflow,
        mayAnswer_raised _ (i := .tokAppend d) (by simp [statusesOf]), fun _ => rfl⟩
  by_cases hnext : i = .tokNext
  · subst hnext
    exact ⟨(tokNext s.buffer).2, returned (tokenResult (tokNext s.buffer).1), exec_tokNext rfl,
      mayAnswer_returned _ (resultSound_tokenResult _ _), fun h => absurd rfl h⟩
  obtain ⟨x, hx, hexec⟩ := answersWithoutBuffer s.config (fun d hd => happend ⟨d, hd⟩) hnext
  exact ⟨s.buffer, x, hexec s rfl, hx, fun _ => rfl⟩

/-- Settles O47: with an error B keeps its value, and the response carries the empty result. -/
theorem errorChangesNothingElse : Obligations.ErrorChangesNothingElse := by
  intro i s t x ht hresponses herror
  obtain ⟨b, y, hexec, hy, hkeeps⟩ := exec_keeps_buffer_of_error i s
  cases ht.symm.trans hexec
  obtain rfl : y = x := by simpa [State.respond, State.setBuffer] using hresponses
  obtain rfl := hkeeps herror
  rw [← hy.empty_of_error herror]
  rfl

/-! ### Where a status is answered -/

/-- Some operation with the op field `op` answers `e` in some state. -/
def AnsweredSomewhere (op : Byte) (e : Status) : Prop :=
  ∃ (j : Instr) (s : State) (b : Bytes) (x : Response), (encode j).opword.extractLsb' 0 8 = op ∧
    exec j s = .next { s with buffer := b, responses := s.responses ++ [x] } ∧ x.status = e

theorem opwordOf_op (op : Byte) (m : Verification) : (opwordOf op m).extractLsb' 0 8 = op :=
  BitVec.extractLsb'_append_eq_right

theorem frameEncodeInstr_op (m : Verification) (f : FrameOperand) :
    (encode (frameEncodeInstr m f)).opword.extractLsb' 0 8 = 0x05#8 := by
  cases m <;> exact opwordOf_op _ _

theorem frameDecodeInstr_op (m : Verification) (w : Bytes) :
    (encode (frameDecodeInstr m w)).opword.extractLsb' 0 8 = 0x06#8 := by
  cases m <;> exact opwordOf_op _ _

/-- An operation for which R105 lists one status answers it in every state. -/
theorem answeredSomewhere_of_statusesOf_eq {i : Instr} {e e' : Status} (hi : statusesOf i = [e'])
    (h : e ∈ statusesOf i) : AnsweredSomewhere ((encode i).opword.extractLsb' 0 8) e := by
  obtain ⟨b, x, hexec, hx, -⟩ := exec_keeps_buffer_of_error i State.reset
  have hstatus := hx.status_mem
  rw [hi, List.mem_singleton] at h hstatus
  exact ⟨i, State.reset, b, x, rfl, hexec, hstatus.trans h.symm⟩

/-! ### The frame codec's statuses -/

/-- A catalog whose one command carries no data in either direction. -/
def oneCommand : Config := ⟨[(Config.startPrint, ⟨.exact 0, .exact 0⟩)], .unbounded⟩

/-- A block with that catalog, after reset. -/
def oneCommandState : State := { State.reset with config := oneCommand }

/-- A frame that `oneCommand` allows. -/
def allowedFrame : FrameOperand := ⟨0x00#8, Config.startPrint, ⟨0x00#8, 0#16, 0#16, 0#16⟩, []⟩

/-- The command 0x0000 is not in the catalog. -/
def unknownCommandFrame : FrameOperand := { allowedFrame with command := 0x0000#16 }

/-- The ack byte 0x01 is not a legal one. -/
def badAckFrame : FrameOperand := { allowedFrame with information := ⟨0x01#8, 0#16, 0#16, 0#16⟩ }

/-- One data byte where the catalog allows none. -/
def longDataFrame : FrameOperand := { allowedFrame with data := [0x00#8] }

theorem lookup_startPrint : lookup oneCommand Config.startPrint = some ⟨.exact 0, .exact 0⟩ := rfl

theorem inEnum_startPrint : inEnum oneCommand Config.startPrint = true := inEnum_of_lookup lookup_startPrint

theorem answeredSomewhere_encode {e : Status} (h : e ∈ encodeStatuses) : AnsweredSomewhere 0x05#8 e := by
  have answers {f : FrameOperand} {e : Status} (hf : frameEncode oneCommand .none f = .error e) :
      AnsweredSomewhere 0x05#8 e :=
    ⟨_, oneCommandState, [], _, frameEncodeInstr_op .none f, exec_frameEncodeInstr_of_error hf, rfl⟩
  simp only [encodeStatuses, List.mem_cons, List.not_mem_nil, or_false] at h
  obtain rfl | rfl | rfl := h
  · exact ⟨_, oneCommandState, [], _, frameEncodeInstr_op .none allowedFrame,
      exec_frameEncodeInstr_of_ok (frameEncode_of_legal .none inEnum_startPrint rfl), rfl⟩
  · exact answers (frameEncode_of_not_inEnum (f := unknownCommandFrame) .none rfl)
  · exact answers (frameEncode_of_not_ackLegal (f := badAckFrame) .none inEnum_startPrint rfl)

section

variable {m : Verification} {e : Status}

theorem answeredSomewhere_of_frameDecode {w : Bytes} (h : frameDecode oneCommand m w = .error e) :
    AnsweredSomewhere 0x06#8 e :=
  ⟨_, oneCommandState, [], _, frameDecodeInstr_op m w, exec_frameDecodeInstr_of_error h, rfl⟩

/-- A body that is refused is refused in its raw frame. -/
theorem answeredSomewhere_of_parseBody {p : Bytes} (hlen : 12 ≤ p.length) (h : parseBody oneCommand m p = .error e) :
    AnsweredSomewhere 0x06#8 e :=
  answeredSomewhere_of_frameDecode ((frameDecode_rawFrame oneCommand hlen).trans h)

end

/-- Each error has an input that fails its check and passes those before it (R84). Only the checksum asks for a mode other
than NONE (R87). -/
theorem answeredSomewhere_decode {e : Status} (h : e ∈ decodeStatuses) : AnsweredSomewhere 0x06#8 e := by
  have body_length := headerLength_le_frameBody_length
  simp only [decodeStatuses, List.mem_cons, List.not_mem_nil, or_false] at h
  obtain rfl | rfl | rfl | rfl | rfl | rfl | rfl | rfl := h
  · have hdecode := (frameDecode_rawFrame (m := .none) oneCommand (body_length allowedFrame)).trans
      (parseBody_of_syntacticallyValid .none rfl)
    exact ⟨_, oneCommandState, [], _, frameDecodeInstr_op .none _, exec_frameDecodeInstr_of_ok hdecode, rfl⟩
  · exact answeredSomewhere_of_frameDecode (frameDecode_of_short (m := .none) (w := []) (by decide))
  · exact answeredSomewhere_of_frameDecode
      (frameDecode_of_not_delimited (m := .none) (w := List.replicate 14 0x00#8) (by decide) rfl)
  · exact answeredSomewhere_of_frameDecode (frameDecode_of_stripChecksum_none (m := .mod256)
      (w := sof :: (frameBody allowedFrame ++ [0x00#8] ++ [eof])) (by decide) rfl rfl)
  · exact answeredSomewhere_of_parseBody (m := .none) (body_length unknownCommandFrame)
      (parseBody_of_not_inEnum (body_length _) rfl)
  · exact answeredSomewhere_of_parseBody (m := .none) (p := (frameBody allowedFrame).set 3 0x0D#8) (by decide)
      (parseBody_of_badDataOffset (by decide) lookup_startPrint (by decide))
  · exact answeredSomewhere_of_parseBody (m := .none) (body_length badAckFrame)
      (parseBody_of_not_ackLegal (body_length _) lookup_startPrint rfl rfl)
  · exact answeredSomewhere_of_parseBody (m := .none) (body_length longDataFrame)
      ((parseBody_frameBody .none lookup_startPrint rfl).trans (if_neg (by decide)))

/-! ### The statuses of TOK_APPEND -/

theorem answeredSomewhere_tokAppend {e : Status} (h : e ∈ statusesOf (.tokAppend [])) : AnsweredSomewhere 0x07#8 e := by
  simp only [statusesOf, List.mem_cons, List.not_mem_nil, or_false] at h
  obtain rfl | rfl := h
  · exact ⟨.tokAppend [], State.reset, _, _, rfl, exec_tokAppend_of_ok rfl, rfl⟩
  · exact ⟨.tokAppend [0x00#8], { State.reset with config := ⟨[], .cap 0⟩ }, [], _, rfl,
      exec_tokAppend_of_error rfl, rfl⟩

/-- Settles O46: FRAME_ENCODE, FRAME_DECODE and TOK_APPEND by their statuses, the others by the one status they have. -/
theorem eachAllowedStatusIsReached : Obligations.EachAllowedStatusIsReached := by
  intro i e h
  change AnsweredSomewhere ((encode i).opword.extractLsb' 0 8) e
  cases i with
  | crc16X25 d => exact answeredSomewhere_of_statusesOf_eq rfl h
  | mod256 d => exact answeredSomewhere_of_statusesOf_eq rfl h
  | escape d => exact answeredSomewhere_of_statusesOf_eq rfl h
  | unescape d => exact answeredSomewhere_of_statusesOf_eq rfl h
  | frameEncodeNone f => exact frameEncodeInstr_op .none f ▸ answeredSomewhere_encode h
  | frameEncodeMod256 f => exact frameEncodeInstr_op .mod256 f ▸ answeredSomewhere_encode h
  | frameEncodeCrc16 f => exact frameEncodeInstr_op .crc16 f ▸ answeredSomewhere_encode h
  | frameDecodeNone w => exact frameDecodeInstr_op .none w ▸ answeredSomewhere_decode h
  | frameDecodeMod256 w => exact frameDecodeInstr_op .mod256 w ▸ answeredSomewhere_decode h
  | frameDecodeCrc16 w => exact frameDecodeInstr_op .crc16 w ▸ answeredSomewhere_decode h
  | tokAppend d => exact answeredSomewhere_tokAppend h
  | tokNext => exact answeredSomewhere_of_statusesOf_eq rfl h

end Sys2Proof.Machine
end

section
/-!
PROOFS. Reset between operations, and a frame whose end was lost in the stream (70_reset_and_hazards.md R119, R120, R126).
-/

namespace Sys2Proof.Machine

/-- Settles O8: what accepting a reset does. -/
theorem resetInputEmptiesBuffer : Obligations.ResetInputEmptiesBuffer :=
  fun _ _ h => acceptNext_reset h

/-- B is cut at the first 0x7F, whatever other bytes, 0x7E among them, stand between it and the leading 0x7E (R96, R99). -/
theorem tokNext_delimited {z : Bytes} (h : eof ∉ z) (r : Bytes) :
    tokNext (sof :: (z ++ eof :: r)) = (some (sof :: (z ++ [eof])), r) := by
  have htoken := tokNext_append_of_isToken (isToken_delimited h) r
  rwa [List.cons_append, ← List.append_cons] at htoken

/-- Settles O42: a second 0x7E is one more byte without a 0x7F before the end of the token. -/
theorem truncatedFrameMergesWithNext : Obligations.TruncatedFrameMergesWithNext := by
  intro x y r hx hy
  have hinside : eof ∉ x ++ sof :: y :=
    List.not_mem_append hx (List.not_mem_cons_of_ne_of_not_mem (by decide) hy)
  have htoken := tokNext_delimited hinside r
  rwa [List.append_assoc, List.append_assoc] at htoken

end Sys2Proof.Machine
end
